-- ==== Sys2Proof/Word.lean ====
section
/-! DEFINITION. The plain data the block moves: bytes, the 4-byte receive buffer and the 6-byte
reply frame (00_scope.md R11, R12; 20_memory.md R50). Nothing here computes. -/

namespace Sys2Proof

/-- One byte, bits LSB-0 (R12). -/
abbrev Byte := BitVec 8

/-- A 16-bit field of a SETUP packet (R71). -/
abbrev Half := BitVec 16

/-- The four bytes `d[0..3]` of a data stage, and the contents of `S.rx_buf` (R32, R50). -/
structure Payload where
  d0 : Byte
  d1 : Byte
  d2 : Byte
  d3 : Byte
deriving DecidableEq, Repr, Inhabited

/-- The six bytes of a reply frame, index 0 first (R23, R53). -/
structure Frame where
  b0 : Byte
  b1 : Byte
  b2 : Byte
  b3 : Byte
  b4 : Byte
  b5 : Byte
deriving DecidableEq, Repr, Inhabited

end Sys2Proof
end

