-- ==== Sys2Proof/Config.lean ====
section
/-! DEFINITION. What an implementation of the block fixes (00_scope.md R10) and the free values of
the model. The parameters that steer a step are plain data, carried by the state, so that every
claim about all states holds for every admitted value of them; the rest are constants without a
body, of which no proof can know a value. -/

namespace Sys2Proof

/-- MATCH_DIR (R10, R74; D4): whether the direction bit is part of the signature. -/
inductive MatchDir where
  | ignore
  | hostToDevice
deriving DecidableEq, Repr

/-- LEN_CHECK (R10, R132; D5): whether a data stage of another length than 4 is declined. -/
inductive LenCheck where
  | on
  | off
deriving DecidableEq, Repr

/-- SETUP_IN_PENDING (R10, R127; D6): what a SETUP does while a data stage is awaited. -/
inductive SetupInPending where
  | fault
  | rematch
deriving DecidableEq, Repr

/-- CNT_OVERFLOW (R10, R161; D8): what the counter does at its top. -/
inductive CntOverflow where
  | wrap
  | fault
deriving DecidableEq, Repr

/-- The implementation parameters that steer a step (R10). CNT_W is held as its excess over 6, so
that no value below 6 can be written down (R163: "A model must not admit CNT_W < 6"). -/
structure Params where
  matchDir       : MatchDir
  lenCheck       : LenCheck
  setupInPending : SetupInPending
  /-- CNT_W minus 6. -/
  cntExtra       : Nat
  cntOverflow    : CntOverflow
deriving DecidableEq, Repr

/-- The values of R10's table: this spec's own for the first three, the simulator's defaults
CNT_W = 32 and WRAP for the two that are open. DESIGN CHOICE (log entry 4); no claim rests on them
unless it says so. -/
def Params.spec : Params :=
  { matchDir := .ignore, lenCheck := .on, setupInPending := .fault, cntExtra := 26,
    cntOverflow := .wrap }

/-- FREE VALUE (log entry 7): what `S.rx_buf` holds after a RESET event (R121 "unspecified"). -/
opaque Config.resetRxBuf : Payload

/-- FREE VALUE (log entry 8): what `S.rx_buf` holds after the n-th arming (R124 "unspecified"). -/
opaque Config.armedRxBuf : Nat → Payload

/-- USB_VID, open (R40; D18). -/
opaque Config.usbVid : Half

/-- USB_PID, open (R40; D18). -/
opaque Config.usbPid : Half

/-- INT_BINTERVAL, open: "the maximum permitted value" (R43; D19). No rule reads it. -/
opaque Config.intBInterval : Byte

/-- The byte that bDeviceSubClass holds beside its mark 'see interface', not in the source (R41; log
entry 27). -/
opaque Config.deviceSubclass : Byte

/-- The byte that bDeviceProtocol holds beside its mark 'see interface', not in the source (R41; log
entry 27). -/
opaque Config.deviceProtocol : Byte

/-- The interface's class, subclass and protocol, not in the source (R41, N6). -/
opaque Config.interfaceClass : Byte × Byte × Byte

/-- The strings the device has (R44). The spec does not say what the serial-number placeholder is: that
it is a fourth string descriptor, beside the three it names, is a DESIGN CHOICE (log entry 26). -/
inductive StringKind where
  | languageTable
  | manufacturer
  | product
  | serialNumber
deriving DecidableEq, Repr

/-- The contents of the string descriptors, open (R44; D29). That the placeholder has contents is a
DESIGN CHOICE (log entry 26). -/
opaque Config.stringDescriptor : StringKind → List Byte

end Sys2Proof
end

