-- ==== Sys2Proof/Syntax.lean ====
section
/-! DEFINITION. The instructions of the block are its input events (00_scope.md R4): one
constructor per row of spec/opcode_table.json. -/

namespace Sys2Proof

/-- The fields of a SETUP packet (30_encoding.md R73), every one unsigned. -/
structure SetupPacket where
  dir       : BitVec 1
  reqType   : BitVec 2
  recipient : BitVec 5
  request   : Byte
  value     : Half
  index     : Half
  length    : Half
deriving DecidableEq, Repr

/-- An input event (R77, R78). -/
inductive Instr where
  /-- RESET, process start (R121). -/
  | reset
  /-- CONFIG, `onConfigurationSelected(configId)` (R122). -/
  | config (cfg : Byte)
  /-- SETUP_SIG: a SETUP whose recipient, type, request, value, index and length are the
  signature's, with either direction bit (R75). -/
  | setupSig (dir : BitVec 1)
  /-- SETUP_OTHER: a SETUP with any other packet (R76). -/
  | setupOther (p : SetupPacket)
  /-- DATA, `onControlDataReceived(buffer, length)` (R131). -/
  | data (len : Byte) (d : Payload)
  /-- TP_SET_ONLINE (R101). -/
  | tpSetOnline (v : Bool)
  /-- TP_SET_BATTERY_GOOD (R102). -/
  | tpSetBatteryGood (g : Bool)
  /-- TP_SERIALIZE (R103). -/
  | tpSerialize
deriving DecidableEq, Repr

end Sys2Proof
end

