-- ==== Sys2Proof/Machine/State.lean ====
section
/-! DEFINITION. The state of the block (10_state.md R20) as plain data, the model's own fields
beside it, and the state after power-on (R38, R210). -/

namespace Sys2Proof.Machine

/-- The Status Register's two bits of storage; the other 46 bits are hardwired zero and have none
(R24, R27). The 6-byte form is `serialize`. -/
structure StatusReg where
  /-- ONLINE, byte 3 bit 2 (R25). -/
  onLine : Bool
  /-- BATTGOOD, byte 3 bit 1 (R26). -/
  batteryGood : Bool
deriving DecidableEq, Repr

/-- `S.txn_state`, one constructor per value of its two bits (R29). -/
inductive TxnState where
  /-- 0b00, the initial state. -/
  | awaitingSetup
  /-- 0b01, a SETUP matched and its data stage is awaited. -/
  | dataPending
  /-- 0b10, the last transaction was acknowledged and its reply submitted. -/
  | complete
  /-- 0b11, which no rule writes. -/
  | illegal
deriving DecidableEq, Repr

/-- An output event with its operands (30_encoding.md R81). -/
inductive OutEvent where
  | respClaimed
  | respDeclined
  | armRx (n : Byte)
  | statusAck
  | statusStall
  | txInt (ep n : Byte) (f : Frame)
  | ledToggle
  | regHandler
  | pipeInit (ep dir mps : Byte)
  | tpFrame (f : Frame)
  | fault (code : BitVec 3)
deriving DecidableEq, Repr

/-- The state of one block instance (R20, R36), and the model's own fields. -/
structure State where
  /-- `S.SR` (R23). -/
  sr : StatusReg
  /-- `S.seq_cnt`, CNT_W bits unsigned (R28): below 2^CNT_W in every state that meets the model's
  invariant (log entry 5). -/
  seqCnt : Nat
  /-- `S.txn_state` (R29). -/
  txnState : TxnState
  /-- `S.rx_buf` (R32). -/
  rxBuf : Payload
  /-- `S.registered` (R30). -/
  registered : Bool
  /-- `S.pipe_init` (R31). -/
  pipeInit : Bool
  /-- `S.fault` (R33). -/
  fault : Bool
  /-- `S.fault_code` (R33, R180). -/
  faultCode : BitVec 3
  /-- `S.refused` (R34). -/
  refused : Bool
  /-- The output trace since RESET, oldest first (00_scope.md R13, R16). -/
  trace : List OutEvent
  /-- The model's own: the byte strings the stack has delivered and the block has not yet taken,
  oldest first (R77, R191; log entry 1). -/
  input : List (List Byte)
  /-- The model's own: the implementation's parameters (R10; log entry 4). No step writes them. -/
  params : Params
  /-- The model's own: numbers the free values of `S.rx_buf` (R124; log entry 8). -/
  freeIdx : Nat
deriving DecidableEq, Repr

/-- The host's outcome `fault` is never answered: every fault of the spec has an effect the spec
describes (60_exceptions.md R185), so it is a next state with the marks set. The type is empty
(log entry 12). -/
inductive Fault where
deriving DecidableEq, Repr

/-- The host's outcome `refused` is never answered by a meaning: the spec's refusals have an effect
the spec describes (60_exceptions.md R190), so they are next states with the mark set (log entry
12). -/
inductive Refusal where
  /-- Raised only by an arm of exec for an instruction without a meaning; there is none. Safe. -/
  | notModelled (mnemonic : String)
deriving DecidableEq, Repr

/-- Power-on, "process start" (R38, R210). The spec gives `S.rx_buf` no value: zeros are a DESIGN
CHOICE (log entry 6). The model's own fields: no delivery, the parameters of R10's table, index 0
(DESIGN CHOICE, log entries 1, 4 and 8). -/
def State.reset : State :=
  { sr := { onLine := false, batteryGood := false }
    seqCnt := 0
    txnState := .awaitingSetup
    rxBuf := { d0 := 0, d1 := 0, d2 := 0, d3 := 0 }
    registered := false
    pipeInit := false
    fault := false
    faultCode := 0
    refused := false
    trace := []
    input := []
    params := Params.spec
    freeIdx := 0 }

end Sys2Proof.Machine
end

