-- ==== Sys2Proof/Machine/Flags.lean ====
section
/-! DEFINITION. The operations of the Status Register (40_status_register.md) on its two bits, and
its serialised forms. -/

namespace Sys2Proof.Machine

/-- `setOnline(v)` (R101): writes ONLINE, no other bit. -/
def setOnline (v : Bool) (r : StatusReg) : StatusReg := { r with onLine := v }

/-- `setBatteryGood(g)` (R102): writes BATTGOOD, no other bit. -/
def setBatteryGood (g : Bool) (r : StatusReg) : StatusReg := { r with batteryGood := g }

/-- One bit as a byte of value 0 or 1. -/
def bitByte (b : Bool) : Byte := (BitVec.ofBool b).setWidth 8

/-- Byte 3 of the frame (R23, R103): ONLINE in bit 2, BATTGOOD in bit 1. -/
def statusByte (r : StatusReg) : Byte := (bitByte r.onLine <<< 2) ||| (bitByte r.batteryGood <<< 1)

/-- `serialize()` (R103), `MemRead(SR, 0, 6)` (20_memory.md R52): the hardwired bytes read zero. -/
def serialize (r : StatusReg) : Frame :=
  { b0 := 0, b1 := 0, b2 := 0, b3 := statusByte r, b4 := 0, b5 := 0 }

/-- `SR48`, the derived 48-bit view with byte 0 least significant (10_state.md R27). -/
def statusWord48 (r : StatusReg) : BitVec 48 := (statusByte r).setWidth 48 <<< 24

end Sys2Proof.Machine
end

