-- ==== Sys2Proof/Decode.lean ====
section
/-! DEFINITION. The decoder of input events, total on any byte string and refusing by name
(30_encoding.md R77, R82, R83), the recognised request (R74, R80), and the encoder written from
the same tables. -/

namespace Sys2Proof

/-- `le16(lo, hi)` (00_scope.md R13): low byte first. -/
def le16 (lo hi : Byte) : Half := (hi.setWidth 16 <<< 8) ||| lo.setWidth 16

/-- The low byte of a 16-bit field, the one that is sent first (R54, R71). -/
def lowByte (h : Half) : Byte := h.setWidth 8

/-- The high byte of a 16-bit field (R71). -/
def highByte (h : Half) : Byte := (h >>> 8).setWidth 8

/-! ## The recognised request -/

/-- SIG_RECIPIENT, interface (R8, R9). -/
def sigRecipient : BitVec 5 := 1
/-- SIG_TYPE, class (R8, R9). -/
def sigType : BitVec 2 := 1
/-- SIG_REQUEST (R8). -/
def sigRequest : Byte := 0x09
/-- SIG_VALUE (R8). -/
def sigValue : Half := 0x0200
/-- SIG_INDEX (R8). -/
def sigIndex : Half := 0x0000
/-- SIG_LENGTH (R8). -/
def sigLength : Half := 4

/-- The six compared fields are the signature's: R74 without its clause on the direction. -/
def SetupPacket.fitsSignature (p : SetupPacket) : Bool :=
  p.recipient == sigRecipient && p.reqType == sigType && p.request == sigRequest
    && p.value == sigValue && p.index == sigIndex && p.length == sigLength

/-- `sig_match(p)` (R74). -/
def sigMatch (md : MatchDir) (p : SetupPacket) : Bool :=
  p.fitsSignature && (md == .ignore || p.dir == 0)

/-- The packet of the SETUP_SIG row with the given direction bit (R75). -/
def sigPacket (dir : BitVec 1) : SetupPacket :=
  { dir := dir, reqType := sigType, recipient := sigRecipient, request := sigRequest,
    value := sigValue, index := sigIndex, length := sigLength }

/-! ## SETUP packets as bytes -/

/-- Field decode of a SETUP packet `p[0..7]` (R73). -/
def decodePacket (p0 p1 p2 p3 p4 p5 p6 p7 : Byte) : SetupPacket :=
  { dir := p0.extractLsb' 7 1, reqType := p0.extractLsb' 5 2, recipient := p0.extractLsb' 0 5,
    request := p1, value := le16 p2 p3, index := le16 p4 p5, length := le16 p6 p7 }

/-- bmRequestType (R72): direction in bit 7, type in bits 6:5, recipient in bits 4:0. -/
def SetupPacket.requestType (p : SetupPacket) : Byte :=
  (p.dir.setWidth 8 <<< 7) ||| (p.reqType.setWidth 8 <<< 5) ||| p.recipient.setWidth 8

/-- The eight bytes of a SETUP packet (R71). -/
def SetupPacket.bytes (p : SetupPacket) : List Byte :=
  [p.requestType, p.request, lowByte p.value, highByte p.value, lowByte p.index, highByte p.index,
    lowByte p.length, highByte p.length]

/-- The event of a SETUP packet: the table's row SETUP_SIG or SETUP_OTHER (log entry 14). -/
def setupEvent (p : SetupPacket) : Instr :=
  if p.fitsSignature then .setupSig p.dir else .setupOther p

/-! ## Tags and lengths (R77) -/

def tagReset : Byte := 0x00
def tagConfig : Byte := 0x01
def tagSetup : Byte := 0x02
def tagData : Byte := 0x03
def tagTpSetOnline : Byte := 0x10
def tagTpSetBatteryGood : Byte := 0x11
def tagTpSerialize : Byte := 0x12

/-- R83's table `need`: the total length the tag alone fixes, none for a reserved tag. -/
def eventLength (t : Byte) : Option Nat :=
  if t = tagReset then some 1
  else if t = tagConfig then some 2
  else if t = tagSetup then some 9
  else if t = tagData then some 6
  else if t = tagTpSetOnline then some 2
  else if t = tagTpSetBatteryGood then some 2
  else if t = tagTpSerialize then some 1
  else none

/-! ## The decoder -/

/-- The reasons of a decode refusal (60_exceptions.md R190). -/
inductive RefuseReason where
  /-- REF_UNKNOWN_TAG: tag 0x04-0x0F or 0x13-0xFF. Safe. -/
  | unknownTag
  /-- REF_TRUNCATED: event shorter than its tag's length. Safe. -/
  | truncated
  /-- REF_BAD_TP_VALUE: test-port value byte neither 0x00 nor 0x01. Safe. -/
  | badTpValue
deriving DecidableEq, Repr

/-- What the decoder answers: an event or a named refusal, each with the bytes that follow it, "the
next event" (R83). -/
inductive Decoded where
  | event (i : Instr) (rest : List Byte)
  | refused (r : RefuseReason) (rest : List Byte)
deriving DecidableEq, Repr

/-- A test-port value byte (R82 (c), R83): 0x00 or 0x01, its bit 0 is the operand. -/
def decodeTpValue (mk : Bool → Instr) (v : Byte) (rest : List Byte) : Decoded :=
  if 1 < v.toNat then .refused .badTpValue rest else .event (mk (v.getLsbD 0)) rest

/-- The operands of CONFIG (R77). -/
def decodeConfig : List Byte → Decoded
  | cfg :: rest => .event (.config cfg) rest
  | _ => .refused .truncated []

/-- The operands of SETUP (R77, R73). -/
def decodeSetup : List Byte → Decoded
  | p0 :: p1 :: p2 :: p3 :: p4 :: p5 :: p6 :: p7 :: rest =>
    .event (setupEvent (decodePacket p0 p1 p2 p3 p4 p5 p6 p7)) rest
  | _ => .refused .truncated []

/-- The operands of DATA (R77, R79). -/
def decodeData : List Byte → Decoded
  | len :: d0 :: d1 :: d2 :: d3 :: rest => .event (.data len ⟨d0, d1, d2, d3⟩) rest
  | _ => .refused .truncated []

/-- The operand of a test-port write (R77, R82). -/
def decodeTp (mk : Bool → Instr) : List Byte → Decoded
  | v :: rest => decodeTpValue mk v rest
  | _ => .refused .truncated []

/-- `decode(bytes)` (R83), total on any byte string. A refusal for an unknown tag or a truncated
event takes the whole byte string, one for a bad test-port value the two bytes its tag gives it
(log entry 2). -/
def decode : List Byte → Decoded
  | [] => .refused .truncated []
  | t :: ops =>
    if t = tagReset then .event .reset ops
    else if t = tagConfig then decodeConfig ops
    else if t = tagSetup then decodeSetup ops
    else if t = tagData then decodeData ops
    else if t = tagTpSetOnline then decodeTp .tpSetOnline ops
    else if t = tagTpSetBatteryGood then decodeTp .tpSetBatteryGood ops
    else if t = tagTpSerialize then .event .tpSerialize ops
    else .refused .unknownTag []

/-! ## The encoder -/

/-- A one-bit operand as its byte, 0x00 or 0x01 (R77). -/
def tpValueByte (v : Bool) : Byte := if v then 0x01 else 0x00

/-- The bytes of an event: its tag, then its operands in order (R77, R84). -/
def encode : Instr → List Byte
  | .reset => [tagReset]
  | .config cfg => [tagConfig, cfg]
  | .setupSig dir => tagSetup :: (sigPacket dir).bytes
  | .setupOther p => tagSetup :: p.bytes
  | .data len d => [tagData, len, d.d0, d.d1, d.d2, d.d3]
  | .tpSetOnline v => [tagTpSetOnline, tpValueByte v]
  | .tpSetBatteryGood g => [tagTpSetBatteryGood, tpValueByte g]
  | .tpSerialize => [tagTpSerialize]

/-! ## Words of the opcode table -/

/-- The first `n` bytes of a number, bits 7:0 first. -/
def wordBytes : Nat → Nat → List Byte
  | 0, _ => []
  | n + 1, w => BitVec.ofNat 8 w :: wordBytes n (w / 256)

/-- The byte string of a table word: its `nbits / 8` bytes, with zero bytes up to the length its tag
gives the event (the table's own rows are never shorter). -/
def tableBytes (nbits w : Nat) : List Byte :=
  let low := w % 2 ^ nbits
  wordBytes (max (nbits / 8) ((eventLength (BitVec.ofNat 8 low)).getD 1)) low

/-- The event the decoder reads from a table word. -/
def decodeTableWord (nbits w : Nat) : Option Instr :=
  match decode (tableBytes nbits w) with
  | .event i _ => some i
  | .refused _ _ => none

end Sys2Proof
end

