-- ==== Sys2Proof/Machine/Ops.lean ====
section
/-! DEFINITION. The named operations a step is made of: the writes of single state elements, `emit`,
raising a fault, refusing, the RESET that alone ends both, the dispatch every event but RESET
passes, and the taking of a delivered event. -/

namespace Sys2Proof.Machine

/-! ## Writes of single elements -/

def setSr (r : StatusReg) (s : State) : State := { s with sr := r }
def setSeqCnt (n : Nat) (s : State) : State := { s with seqCnt := n }
/-- `state <- X` (00_scope.md R13). -/
def setTxn (x : TxnState) (s : State) : State := { s with txnState := x }
/-- `MemWrite(rx_buf, 0, 4, d)` (20_memory.md R51). -/
def setRxBuf (d : Payload) (s : State) : State := { s with rxBuf := d }
def setRegistered (b : Bool) (s : State) : State := { s with registered := b }
def setPipeInit (b : Bool) (s : State) : State := { s with pipeInit := b }
def setFaultMarks (code : BitVec 3) (s : State) : State := { s with fault := true, faultCode := code }
def setRefused (s : State) : State := { s with refused := true }
/-- `emit(E)` (00_scope.md R13): appends to the output trace. -/
def emit (e : OutEvent) (s : State) : State := { s with trace := s.trace ++ [e] }
def setInput (q : List (List Byte)) (s : State) : State := { s with input := q }
/-- `S.rx_buf <- unspecified` (41_control_transfer.md R124): a free value, the next one (log entry
8). -/
def armRxBuf (s : State) : State :=
  { s with rxBuf := Config.armedRxBuf s.freeIdx, freeIdx := s.freeIdx + 1 }

/-! ## Constants of the block (00_scope.md R8) -/

/-- RX_LEN and SIG_LENGTH, the bytes a matching SETUP arms. -/
def rxLen : Byte := 4
/-- FRAME_LEN. -/
def frameLen : Byte := 6
/-- INT_EP, the interrupt-IN endpoint. -/
def intEp : Byte := 1
/-- Direction IN as PIPE_INIT writes it (30_encoding.md R81). -/
def dirIn : Byte := 1
/-- INT_MPS. -/
def intMps : Byte := 32

/-- CNT_W (00_scope.md R10, R163). -/
def cntWidth (p : Params) : Nat := 6 + p.cntExtra

/-! ## Faults and refusals -/

/-- The named faults (60_exceptions.md R180). -/
inductive FaultCode where
  /-- Raised by DATA with no data stage armed (R181). Safe. -/
  | unsolicitedData
  /-- Raised by SETUP while a data stage is awaited and SETUP_IN_PENDING = FAULT (R182). Safe. -/
  | setupInPending
  /-- Raised by DATA of more than 4 bytes with LEN_CHECK = OFF (R183). Safe. -/
  | dataOverrun
  /-- Raised by any event but RESET in the unused transaction state (R184). Safe. -/
  | illegalState
  /-- Raised by DATA's transmit when the pipe is not initialised (R186). Safe. -/
  | txPipeUninit
  /-- Raised by DATA at the counter's top with CNT_OVERFLOW = FAULT (R187). Safe. -/
  | cntOverflow
deriving DecidableEq, Repr

/-- The 3-bit code of a fault (R180). -/
def faultBits : FaultCode → BitVec 3
  | .unsolicitedData => 1
  | .setupInPending => 2
  | .dataOverrun => 3
  | .illegalState => 4
  | .txPipeUninit => 5
  | .cntOverflow => 6

/-- `raise Fault(code)` (60_exceptions.md R185), applied to the state at the start of the step: the
marks and FAULT(code), nothing else. It saves nothing but the code and goes to no handler (R193). -/
def raiseFault (c : FaultCode) (s : State) : State :=
  emit (.fault (faultBits c)) (setFaultMarks (faultBits c) s)

/-- `refuse(reason)` (60_exceptions.md R190): sets `S.refused` and does nothing else; the reason is
not recorded. -/
def refuse (_r : RefuseReason) (s : State) : State := setRefused s

/-- RESET (41_control_transfer.md R121, 10_state.md R38), the only way out of a faulted or refused
block (R194): every element at its reset value, the output trace of a new run empty (log entry 3),
`S.rx_buf` a free value (log entry 7); the model's own fields are kept. -/
def resetBlock (s : State) : State :=
  { State.reset with
    rxBuf := Config.resetRxBuf, input := s.input, params := s.params, freeIdx := s.freeIdx }

/-! ## The dispatch (41_control_transfer.md R120) -/

/-- A faulted or refused block is quiescent. -/
def quiescent (s : State) : Bool := s.fault || s.refused

/-- The end of an event's rule: its result, or the fault raised on the state before it, so that every
write and output of the step is discarded (R185). -/
def commit (s : State) : Except FaultCode State → State
  | .ok t => t
  | .error c => raiseFault c s

/-- Every event but RESET: quiescence, then the illegal transaction state, then the event's own rule
(R120, R192). -/
def runEvent (rule : State → Except FaultCode State) (s : State) :
    Host.Outcome State Fault Refusal :=
  if quiescent s = true then .next s
  else if s.txnState = .illegal then .next (raiseFault .illegalState s)
  else .next (commit s (rule s))

/-! ## Taking a delivered event -/

/-- What is left of the deliveries once an event is taken from the first: "the remaining bytes ... are
the next event" (30_encoding.md R83). -/
def requeue (rest : List Byte) (q : List (List Byte)) : List (List Byte) :=
  match rest with
  | [] => q
  | b :: bs => (b :: bs) :: q

/-- What the block finds when it looks for its next event. -/
inductive Fetched where
  /-- No delivery is waiting. -/
  | idle
  /-- An event, and the state with the delivery's bytes taken. -/
  | event (i : Instr) (s : State)
  /-- A byte string that is no event, and the state with its bytes taken. -/
  | refused (r : RefuseReason) (s : State)

/-- Take and decode the next event (30_encoding.md R77, R83; log entries 1 and 2). -/
def fetch (s : State) : Fetched :=
  match s.input with
  | [] => .idle
  | bytes :: q =>
    match decode bytes with
    | .event i rest => .event i (setInput (requeue rest q) s)
    | .refused r rest => .refused r (setInput (requeue rest q) s)

/-- A table word delivered as the block's next event. -/
def deliverWord (s : State) (nbits w : Nat) : State :=
  setInput (tableBytes nbits w :: s.input) s

end Sys2Proof.Machine
end

