-- ==== Sys2Proof/Machine/Schedule.lean ====
section
/-! DEFINITION. The demo schedule and the sequence counter (42_demo_schedule.md). -/

namespace Sys2Proof.Machine

/-- `sched(c)` (R160) on the Status Register, kept apart from the protocol (R168). -/
def sched (c : Nat) (r : StatusReg) : StatusReg :=
  if c = 0 then setBatteryGood true (setOnline true r)
  else if c = 30 then setOnline false r
  else if c = 40 then setOnline true r
  else if c = 50 then setOnline false r
  else if c = 60 then setBatteryGood false r
  else r

/-- `inc(c)` (R161) on CNT_W-bit values. -/
def inc (p : Params) (c : Nat) : Except FaultCode Nat :=
  if c = 2 ^ cntWidth p - 1 then
    match p.cntOverflow with
    | .wrap => .ok 0
    | .fault => .error .cntOverflow
  else .ok (c + 1)

end Sys2Proof.Machine
end

