-- ==== Sys2Proof/Machine/ControlTransfer.lean ====
section
/-! DEFINITION. The events of the Control Protocol Handler (41_control_transfer.md): RESET, CONFIG,
SETUP and DATA. -/

namespace Sys2Proof.Machine

/-- RESET (R121): accepted in every state, before the dispatch (R120). -/
def execReset (s : State) : Host.Outcome State Fault Refusal := .next (resetBlock s)

/-! ## CONFIG -/

/-- The first CONFIG (R122): REG_HANDLER, then PIPE_INIT of endpoint 1, IN, 32. -/
def firstConfig (s : State) : State :=
  emit (.pipeInit intEp dirIn intMps)
    (setPipeInit true (emit .regHandler (setRegistered true s)))

/-- The CONFIG rule (R122); a later CONFIG does nothing. -/
def configRule (s : State) : Except FaultCode State :=
  .ok (if s.registered = true then s else firstConfig s)

/-- CONFIG (R122). No rule reads the configuration value (D11). -/
def execConfig (_cfg : Byte) (s : State) : Host.Outcome State Fault Refusal :=
  runEvent configRule s

/-! ## SETUP -/

/-- The matching branch of R124: arm the receive, claim, await the data stage. -/
def claimSetup (s : State) : State :=
  setTxn .dataPending (emit .respClaimed (emit (.armRx rxLen) (armRxBuf s)))

/-- The declining branch (R125). -/
def declineSetup (s : State) : State := setTxn .awaitingSetup (emit .respDeclined s)

/-- The SETUP rule (R124), with R126 before registration and R127 while a data stage is awaited. -/
def setupRule (p : SetupPacket) (s : State) : Except FaultCode State :=
  if s.registered = false then .ok (emit .respDeclined s)
  else if s.txnState = .dataPending ∧ s.params.setupInPending = .fault then .error .setupInPending
  else if sigMatch s.params.matchDir p = true then .ok (claimSetup s)
  else .ok (declineSetup s)

/-- SETUP with the signature's six fields and either direction bit (R124; the table's SETUP_SIG). -/
def execSetupSig (dir : BitVec 1) (s : State) : Host.Outcome State Fault Refusal :=
  runEvent (setupRule (sigPacket dir)) s

/-- SETUP with any other packet (R124, R125; the table's SETUP_OTHER). -/
def execSetupOther (p : SetupPacket) (s : State) : Host.Outcome State Fault Refusal :=
  runEvent (setupRule p) s

/-! ## DATA -/

/-- A data stage of the wrong length under LEN_CHECK = ON (R132): the status stage is declined. -/
def stallData (s : State) : State := setTxn .awaitingSetup (emit .statusStall s)

/-- The register updates of a completed data stage, from the counter value before the step to `n`
(R131): payload stored, counter advanced, schedule applied. -/
def updateData (n : Nat) (d : Payload) (s : State) : State :=
  setSr (sched s.seqCnt s.sr) (setSeqCnt n (setRxBuf d s))

/-- LED_TOGGLE, then STATUS_ACK (R135). -/
def acknowledge (s : State) : State := emit .statusAck (emit .ledToggle s)

/-- The reply: a snapshot of the register on the interrupt-IN pipe (R131, 20_memory.md R65). -/
def submitReply (s : State) : State :=
  setTxn .complete (emit (.txInt intEp frameLen (serialize s.sr)) s)

/-- The completion of a transaction (R131): update, acknowledge, transmit. -/
def completeData (d : Payload) (s : State) : Except FaultCode State :=
  match inc s.params s.seqCnt with
  | .error c => .error c
  | .ok n =>
    if s.pipeInit = false then .error .txPipeUninit
    else .ok (submitReply (acknowledge (updateData n d s)))

/-- The DATA rule (R131), with R132 for a length other than 4 and R133 when nothing is armed. -/
def dataRule (len : Byte) (d : Payload) (s : State) : Except FaultCode State :=
  if s.txnState ≠ .dataPending then .error .unsolicitedData
  else if len = rxLen then completeData d s
  else
    match s.params.lenCheck with
    | .on => .ok (stallData s)
    | .off => if rxLen.toNat < len.toNat then .error .dataOverrun else completeData d s

/-- DATA (R131). -/
def execData (len : Byte) (d : Payload) (s : State) : Host.Outcome State Fault Refusal :=
  runEvent (dataRule len d) s

end Sys2Proof.Machine
end

