-- ==== Sys2Proof/Machine/TestPort.lean ====
section
/-! DEFINITION. The test-port events, which expose the Status Register's operations
(40_status_register.md). -/

namespace Sys2Proof.Machine

/-- TP_SET_ONLINE (R100, R101). -/
def execTpSetOnline (v : Bool) (s : State) : Host.Outcome State Fault Refusal :=
  runEvent (fun s => .ok (setSr (setOnline v s.sr) s)) s

/-- TP_SET_BATTERY_GOOD (R100, R102). -/
def execTpSetBatteryGood (g : Bool) (s : State) : Host.Outcome State Fault Refusal :=
  runEvent (fun s => .ok (setSr (setBatteryGood g s.sr) s)) s

/-- TP_SERIALIZE (R100, R103). -/
def execTpSerialize (s : State) : Host.Outcome State Fault Refusal :=
  runEvent (fun s => .ok (emit (.tpFrame (serialize s.sr)) s)) s

end Sys2Proof.Machine
end

