-- ==== Sys2Proof/Machine/Dispatch.lean ====
section
/-! DEFINITION. One arm per input event (41_control_transfer.md R120). -/

namespace Sys2Proof.Machine

def exec (i : Instr) (s : State) : Host.Outcome State Fault Refusal :=
  match i with
  | .reset => Sys2Proof.Machine.execReset s
  | .config cfg => Sys2Proof.Machine.execConfig cfg s
  | .setupSig dir => Sys2Proof.Machine.execSetupSig dir s
  | .setupOther p => Sys2Proof.Machine.execSetupOther p s
  | .data len d => Sys2Proof.Machine.execData len d s
  | .tpSetOnline v => Sys2Proof.Machine.execTpSetOnline v s
  | .tpSetBatteryGood g => Sys2Proof.Machine.execTpSetBatteryGood g s
  | .tpSerialize => Sys2Proof.Machine.execTpSerialize s

end Sys2Proof.Machine
end

