-- ==== Sys2Proof/Machine/Step.lean ====
section
/-! DEFINITION. One step: take the next delivered event and run it (00_scope.md R14), refuse a byte
string that is no event (60_exceptions.md R190), or wait when nothing is delivered (log entry 1). -/

namespace Sys2Proof.Machine

def step (s : State) : Host.Outcome State Fault Refusal :=
  match fetch s with
  | .idle => .next s
  | .event i t => exec i t
  | .refused r t => .next (refuse r t)

def State.withFetchWord (s : State) (nbits w : Nat) : State := deliverWord s nbits w

end Sys2Proof.Machine
end

