-- ==== Sys2Proof/Machine/Operands.lean ====
section
/-! DEFINITION. Operand forms: byte sequences of frames and payloads in index order, the SETUP
packet as one 64-bit word with its match pattern, the two bits of a transaction state, and the
encoding of output events. -/

namespace Sys2Proof.Machine

/-- Frame bytes in index order, byte 0 first (20_memory.md R53). -/
def frameBytes (f : Frame) : List Byte := [f.b0, f.b1, f.b2, f.b3, f.b4, f.b5]

/-- The two bits of `S.txn_state` (10_state.md R29). -/
def txnBits : TxnState → BitVec 2
  | .awaitingSetup => 0b00
  | .dataPending => 0b01
  | .complete => 0b10
  | .illegal => 0b11

/-- A byte sequence read as a little-endian 64-bit word, `Σ p[i] << (8·i)` (30_encoding.md R75). -/
def leWord64 : List Byte → BitVec 64
  | [] => 0
  | b :: bs => b.setWidth 64 ||| (leWord64 bs <<< 8)

/-- MATCH of R75. -/
def setupMatch : BitVec 64 := 0x0004000002000921

/-- MASK of R75, by MATCH_DIR. -/
def setupMask : MatchDir → BitVec 64
  | .ignore => 0xFFFFFFFFFFFFFF7F
  | .hostToDevice => 0xFFFFFFFFFFFFFFFF

/-- The bytes of an output event: its tag, then its operands (30_encoding.md R81). The 3-bit fault
code is zero-extended to its byte (DEDUCED, log entry 15). -/
def outBytes : OutEvent → List Byte
  | .respClaimed => [0x80]
  | .respDeclined => [0x81]
  | .armRx n => [0x82, n]
  | .statusAck => [0x83]
  | .statusStall => [0x84]
  | .txInt ep n f => 0x85 :: ep :: n :: frameBytes f
  | .ledToggle => [0x86]
  | .regHandler => [0x87]
  | .pipeInit ep dir mps => [0x88, ep, dir, mps]
  | .tpFrame f => 0x89 :: frameBytes f
  | .fault code => [0x8F, code.setWidth 8]

end Sys2Proof.Machine
end

