-- ==== Sys2Proof/Machine/Script.lean ====
section
/-! DEFINITION. Event scripts (30_encoding.md R84, R85) assembled to event bytes, and the written
form of output events (R86). Notation only: no step reads a script. Texts are lists of
characters. Conventions the rules leave open: log entry 17. -/

namespace Sys2Proof.Machine

/-- The value of a hexadecimal digit. -/
def hexValue (c : Char) : Option Nat :=
  if 48 ≤ c.toNat ∧ c.toNat ≤ 57 then some (c.toNat - 48)
  else if 65 ≤ c.toNat ∧ c.toNat ≤ 70 then some (c.toNat - 55)
  else if 97 ≤ c.toNat ∧ c.toNat ≤ 102 then some (c.toNat - 87)
  else none

/-- A hexadecimal byte of two digits. -/
def hexByte : List Char → Option Byte
  | [a, b] => do return BitVec.ofNat 8 (16 * (← hexValue a) + (← hexValue b))
  | _ => none

/-- A decimal number of at least one digit. -/
def decimal : List Char → Option Nat
  | [] => none
  | cs => cs.foldlM (fun n c =>
      if 48 ≤ c.toNat ∧ c.toNat ≤ 57 then some (10 * n + (c.toNat - 48)) else none) 0

/-- Split at the characters that `sep` names; never empty. -/
def splitAt (sep : Char → Bool) : List Char → List (List Char)
  | [] => [[]]
  | c :: cs =>
    match splitAt sep cs with
    | [] => [[]]
    | w :: ws => if sep c then [] :: w :: ws else (c :: w) :: ws

/-- The words of a line, its comment dropped: "a `;` starts a comment" (R84). -/
def lineWords (line : List Char) : List (List Char) :=
  (splitAt (fun c => c == ' ' || c.toNat == 9 || c.toNat == 13)
    (line.takeWhile (fun c => c != ';'))).filter (fun w => !w.isEmpty)

/-- The recognised request with direction 0, `SIGSETUP` (R85). -/
def sigSetupBytes : List Byte := encode (.setupSig 0)

/-- The mnemonics of R84 with their tags. -/
def eventMnemonics : List (List Char × Byte) :=
  [("RESET".toList, tagReset),
   ("CONFIG".toList, tagConfig),
   ("SETUP".toList, tagSetup),
   ("DATA".toList, tagData),
   ("TP_SET_ONLINE".toList, tagTpSetOnline),
   ("TP_SET_BATTERY_GOOD".toList,
     tagTpSetBatteryGood),
   ("TP_SERIALIZE".toList, tagTpSerialize)]

/-- One line of one event, or of a pseudo-event without a block, as bytes (R84, R85). -/
def eventLine (m : List Char) (operands : List Byte) : Option (List Byte) :=
  if m = "SIGSETUP".toList then
    if operands = [] then some sigSetupBytes else none
  else if m = "TXN".toList then
    if operands.length = 4 then some (sigSetupBytes ++ tagData :: 4 :: operands) else none
  else
    match eventMnemonics.lookup m with
    | none => none
    | some t => if eventLength t = some (operands.length + 1) then some (t :: operands) else none

/-- What is assembled so far: the open REPEAT blocks, innermost first, each with its count and the
bytes before it, and the bytes of the innermost block. -/
structure Assembly where
  blocks : List (Nat × List Byte)
  out    : List Byte
deriving DecidableEq, Repr

/-- `out`, `n` times. -/
def repeatBytes : Nat → List Byte → List Byte
  | 0, _ => []
  | n + 1, out => out ++ repeatBytes n out

/-- One line (R84, R85): nothing, the opening or the closing of a REPEAT block, or one event. -/
def assembleLine (a : Assembly) (line : List Char) : Option Assembly :=
  match lineWords line with
  | [] => some a
  | [w] =>
    if w = [Char.ofNat 125] then
      match a.blocks with
      | [] => none
      | (n, before) :: bs => some { blocks := bs, out := before ++ repeatBytes n a.out }
    else (eventLine w []).map (fun bytes => { a with out := a.out ++ bytes })
  | m :: args =>
    if m = "REPEAT".toList then
      match args with
      | [n, brace] =>
        if brace = [Char.ofNat 123] then
          (decimal n).map (fun k => { blocks := (k, a.out) :: a.blocks, out := [] })
        else none
      | _ => none
    else do
      let operands ← args.mapM hexByte
      let bytes ← eventLine m operands
      return { a with out := a.out ++ bytes }

/-- A whole script as the bytes of its events, in order (R84). -/
def assemble (text : List Char) : Option (List Byte) := do
  let a ← (splitAt (fun c => c.toNat == 10) text).foldlM assembleLine { blocks := [], out := [] }
  if a.blocks = [] then some a.out else none

/-! ## Output traces (R86) -/

/-- The mnemonic of an output event (R81). -/
def outMnemonic : OutEvent → String
  | .respClaimed => "RESP_CLAIMED"
  | .respDeclined => "RESP_DECLINED"
  | .armRx _ => "ARM_RX"
  | .statusAck => "STATUS_ACK"
  | .statusStall => "STATUS_STALL"
  | .txInt _ _ _ => "TX_INT"
  | .ledToggle => "LED_TOGGLE"
  | .regHandler => "REG_HANDLER"
  | .pipeInit _ _ _ => "PIPE_INIT"
  | .tpFrame _ => "TP_FRAME"
  | .fault _ => "FAULT"

/-- One hexadecimal digit, capitals. -/
def hexDigit (n : Nat) : String := String.singleton (Char.ofNat (if n < 10 then 48 + n else 55 + n))

/-- A byte as two hexadecimal digits. -/
def hexText (b : Byte) : String := hexDigit (b.toNat / 16) ++ hexDigit (b.toNat % 16)

/-- An output event as a trace writes it: its mnemonic, then its operands in hexadecimal (R86). -/
def outText (e : OutEvent) : String :=
  (outBytes e).tail.foldl (fun t b => t ++ " " ++ hexText b) (outMnemonic e)

end Sys2Proof.Machine
end

