-- ==== Sys2Proof/Machine/Identity.lean ====
section
/-! DEFINITION. The static USB identity of the device the block appears to be (10_state.md R40 to
R44, 20_memory.md R66). No step reads it. -/

namespace Sys2Proof.Machine

/-- A device-level class, subclass or protocol field (R41): the byte it holds, and whether it is marked
'see interface', delegated to the interface descriptor. -/
structure DeviceField where
  code         : Byte
  seeInterface : Bool
deriving DecidableEq, Repr

/-- The code that holds for the device: the interface's where the field is delegated (R41). -/
def DeviceField.resolve (f : DeviceField) (interfaceCode : Byte) : Byte :=
  if f.seeInterface then interfaceCode else f.code

/-- The host-visible identity (R40 to R44). -/
structure UsbIdentity where
  vid               : Half
  pid               : Half
  deviceClass       : DeviceField
  deviceSubclass    : DeviceField
  deviceProtocol    : DeviceField
  /-- The interface's class, subclass and protocol. -/
  interfaceClass    : Byte × Byte × Byte
  numConfigurations : Nat
  numInterfaces     : Nat
  /-- The addresses of the interrupt-IN endpoints. -/
  endpointAddresses : List Byte
  maxPacketSize     : Half
  bInterval         : Byte
  strings           : List StringKind

/-- bEndpointAddress: direction in bit 7, endpoint number below (R43; general knowledge G5, PRESUMED,
log entry 16). -/
def endpointAddress (dir ep : Byte) : Byte := (dir <<< 7) ||| ep

/-- The identity: the open values are constants without a body (log entries 16 and 27); the device's
class, subclass and protocol are all delegated to the interface (R41), and the byte 0x00 of the first
is general knowledge (R41, G4). The fourth string is the model's reading of R44 (log entry 26). -/
def usbIdentity : UsbIdentity :=
  { vid := Config.usbVid
    pid := Config.usbPid
    deviceClass := { code := 0x00, seeInterface := true }
    deviceSubclass := { code := Config.deviceSubclass, seeInterface := true }
    deviceProtocol := { code := Config.deviceProtocol, seeInterface := true }
    interfaceClass := Config.interfaceClass
    numConfigurations := 1
    numInterfaces := 1
    endpointAddresses := [endpointAddress dirIn intEp]
    maxPacketSize := intMps.setWidth 16
    bInterval := Config.intBInterval
    strings := [.languageTable, .manufacturer, .product, .serialNumber] }

/-- The class, subclass and protocol that hold for a device, its delegations followed (R41). -/
def UsbIdentity.classCodes (u : UsbIdentity) : Byte × Byte × Byte :=
  (u.deviceClass.resolve u.interfaceClass.1, u.deviceSubclass.resolve u.interfaceClass.2.1,
    u.deviceProtocol.resolve u.interfaceClass.2.2)

end Sys2Proof.Machine
end

