-- ==== Sys2Proof/WellFormed.lean ====
section
/-! DEFINITION. Which terms of Instr are the reading of some byte string: every one but a
SETUP_OTHER that carries the signature's fields, which is SETUP_SIG's packet (30_encoding.md R75,
R76; spec/opcode_table.json, "any SETUP packet not selected by SETUP_SIG"). -/

namespace Sys2Proof

/-- The instruction is the canonical name of its bytes. -/
def Instr.wellFormed : Instr → Bool
  | .setupOther p => !p.fitsSignature
  | .reset => true
  | .config _ => true
  | .setupSig _ => true
  | .data _ _ => true
  | .tpSetOnline _ => true
  | .tpSetBatteryGood _ => true
  | .tpSerialize => true

end Sys2Proof
end

