-- ==== Sys2Proof/Safety.lean ====
section
/-! DEFINITION. The terms in which claims are stated: when the block takes events, what a safe run
is, what the stack may do, the invariants, and runs of events. -/

namespace Sys2Proof.Machine

/-- The block takes events: not faulted, not refused, in a legal transaction state (R120). -/
abbrev Live (s : State) : Prop :=
  s.fault = false ∧ s.refused = false ∧ s.txnState ≠ .illegal

/-- The last event of the run has been processed: the input is at its end, or the next event is a RESET,
which starts a new run (60_exceptions.md R196). -/
def runEnds (s : State) : Bool :=
  match fetch s with
  | .idle => true
  | .event i _ => i == .reset
  | .refused _ _ => false

/-- "A run ends well" (60_exceptions.md R196): it ends, without marks, in a legal transaction state. -/
abbrev EndsWell (s : State) : Prop :=
  runEnds s = true ∧ s.fault = false ∧ s.refused = false ∧ s.txnState ≠ .illegal

/-- A SETUP is not turned away for a data stage that is awaited (41_control_transfer.md R127). -/
abbrev SetupAllowed (s : State) : Prop :=
  s.txnState = .dataPending → s.params.setupInPending = .rematch

/-- Every element but `S.rx_buf` at the reset value of 10_state.md R38, which leaves that one
unspecified. -/
abbrev HasResetValues (s : State) : Prop :=
  serialize s.sr = ⟨0, 0, 0, 0, 0, 0⟩ ∧ s.seqCnt = 0 ∧ txnBits s.txnState = 0b00 ∧
    s.registered = false ∧ s.pipeInit = false ∧ s.fault = false ∧ s.faultCode = 0 ∧
    s.refused = false

/-- A data stage that completes its transaction: it is awaited, the pipe is there, its length is 4 or
a shorter one that LEN_CHECK = OFF lets pass (R131, R132), and the counter has room or wraps
(42_demo_schedule.md R161). -/
abbrev DataCompletes (len : Byte) (s : State) : Prop :=
  Live s ∧ s.txnState = .dataPending ∧ s.pipeInit = true ∧
    (len = 4 ∨ (s.params.lenCheck = .off ∧ len.toNat < 4)) ∧
    (s.seqCnt = 2 ^ cntWidth s.params - 1 → s.params.cntOverflow = .wrap)

/-- The counter after a completed transaction (42_demo_schedule.md R161). -/
def nextCount (s : State) : Nat :=
  if s.seqCnt = 2 ^ cntWidth s.params - 1 then 0 else s.seqCnt + 1

/-- The outputs of a completed transaction, in R135's order. -/
def replyOutputs (r : StatusReg) : List OutEvent :=
  [.ledToggle, .statusAck, .txInt 1 6 (serialize r)]

/-- Power-on of a block with the given parameters. -/
def powerOn (p : Params) : State := { State.reset with params := p }

/-- What the stack is assumed never to do is what this is false of (60_exceptions.md R195). -/
def stackMay (s : State) : Instr → Bool
  | .setupSig _ => s.txnState != .dataPending
  | .setupOther _ => s.txnState != .dataPending
  | .data len _ => s.txnState == .dataPending && decide (len.toNat ≤ 4)
  | .reset => true
  | .config _ => true
  | .tpSetOnline _ => true
  | .tpSetBatteryGood _ => true
  | .tpSerialize => true

/-- The events a deployed block never sees (40_status_register.md R107). -/
def isTestWrite : Instr → Bool
  | .tpSetOnline _ => true
  | .tpSetBatteryGood _ => true
  | .reset => false
  | .config _ => false
  | .setupSig _ => false
  | .setupOther _ => false
  | .data _ _ => false
  | .tpSerialize => false

/-- A sequence of events, each run by exec. -/
def runEvents : List Instr → State → Host.Outcome State Fault Refusal
  | [], s => .next s
  | i :: is, s =>
    match exec i s with
    | .next t => runEvents is t
    | .fault f => .fault f
    | .refused r => .refused r

/-! ## Invariants -/

/-- The machine's invariant: the transaction state is legal (R29), the counter fits CNT_W bits
(R28), the two configuration flags agree (R122), a transaction was only ever begun after the
registration (R137), the fault marks agree (R33), and no code is one that no run raises
(R137, R180, R184). -/
abbrev BlockInv (s : State) : Prop :=
  s.txnState ≠ .illegal ∧ s.seqCnt < 2 ^ cntWidth s.params ∧ s.registered = s.pipeInit ∧
    (s.txnState ≠ .awaitingSetup → s.registered = true) ∧
    (s.fault = false ↔ s.faultCode = 0) ∧ s.faultCode ≠ 4 ∧ s.faultCode ≠ 5 ∧ s.faultCode ≠ 7

/-- The transactions completed since RESET: the STATUS_ACK events of the trace (R131, R138). -/
def completed (s : State) : Nat := s.trace.count .statusAck

def isTxInt : OutEvent → Bool
  | .txInt _ _ _ => true
  | _ => false

/-- The counter is the number of completed transactions, as CNT_W bits hold it (R28, R136), and each
of them toggled the LED once and submitted one reply (R131). -/
abbrev CountsTransactions (s : State) : Prop :=
  s.seqCnt = completed s % 2 ^ cntWidth s.params ∧
    s.trace.countP isTxInt = completed s ∧ s.trace.count .ledToggle = completed s

/-- The flags after `c` completed transactions (42_demo_schedule.md R164, its column n). -/
def trajectory (c : Nat) : StatusReg :=
  if c = 0 then ⟨false, false⟩
  else if c ≤ 30 then ⟨true, true⟩
  else if c ≤ 40 then ⟨false, true⟩
  else if c ≤ 50 then ⟨true, true⟩
  else if c ≤ 60 then ⟨false, true⟩
  else ⟨false, false⟩

/-- The flags are where R164's trajectory puts them. -/
abbrev OnTrajectory (s : State) : Prop :=
  s.sr = trajectory s.seqCnt ∧ s.seqCnt < 2 ^ cntWidth s.params

def isConfigOutput : OutEvent → Bool
  | .regHandler => true
  | .pipeInit _ _ _ => true
  | _ => false

/-- Registration was announced exactly once if it happened, and never otherwise (R123). -/
abbrev AnnouncedOnce (s : State) : Prop :=
  s.trace.filter isConfigOutput = if s.registered = true then [.regHandler, .pipeInit 1 1 32] else []

/-- Every claimed transaction was acknowledged or stalled, but for the one that is in flight
(20_memory.md R55). -/
abbrev OneInFlight (s : State) : Prop :=
  s.trace.count .respClaimed =
    s.trace.count .statusAck + s.trace.count .statusStall +
      (if s.txnState = .dataPending then 1 else 0)

/-- Every acknowledged or stalled transaction, and the one in flight, was claimed; under REMATCH others
may have been claimed and abandoned (20_memory.md R55, 41_control_transfer.md R127). -/
abbrev ClaimsCoverReplies (s : State) : Prop :=
  s.trace.count .statusAck + s.trace.count .statusStall +
      (if s.txnState = .dataPending then 1 else 0) ≤ s.trace.count .respClaimed

/-- The four frames of 40_status_register.md R106. -/
def legalFrames : List Frame :=
  [⟨0, 0, 0, 0x00, 0, 0⟩, ⟨0, 0, 0, 0x02, 0, 0⟩, ⟨0, 0, 0, 0x04, 0, 0⟩, ⟨0, 0, 0, 0x06, 0, 0⟩]

/-- The operands R81 gives an output event. -/
def legalOutput : OutEvent → Bool
  | .txInt ep n f => ep == 1 && n == 6 && legalFrames.contains f
  | .tpFrame f => legalFrames.contains f
  | .armRx n => n == 4
  | .pipeInit ep dir mps => ep == 1 && dir == 1 && mps == 32
  | .fault c => c != 0 && c != 7
  | _ => true

/-- Every output so far is one of R81's. -/
abbrev OutputsLegal (s : State) : Prop := s.trace.all legalOutput = true

/-! ## What an event may write -/

/-- The elements of R37's table that an event can write (`S.refused` is written at decode only). -/
inductive Element where
  | online
  | battGood
  | seqCnt
  | txnState
  | rxBuf
  | registered
  | pipeInit
  | faultMarks
deriving DecidableEq, Repr

/-- The columns W of 10_state.md R37's table. -/
def mayWrite : Element → Instr → Bool
  | _, .reset => true
  | e, .config _ => e == .registered || e == .pipeInit || e == .faultMarks
  | e, .setupSig _ => e == .txnState || e == .rxBuf || e == .faultMarks
  | e, .setupOther _ => e == .txnState || e == .rxBuf || e == .faultMarks
  | e, .data _ _ =>
    e == .online || e == .battGood || e == .seqCnt || e == .txnState || e == .rxBuf
      || e == .faultMarks
  | e, .tpSetOnline _ => e == .online
  | e, .tpSetBatteryGood _ => e == .battGood
  | _, .tpSerialize => false

/-- The element has the same value in both states. -/
def keeps : Element → State → State → Prop
  | .online, s, t => t.sr.onLine = s.sr.onLine
  | .battGood, s, t => t.sr.batteryGood = s.sr.batteryGood
  | .seqCnt, s, t => t.seqCnt = s.seqCnt
  | .txnState, s, t => t.txnState = s.txnState
  | .rxBuf, s, t => t.rxBuf = s.rxBuf
  | .registered, s, t => t.registered = s.registered
  | .pipeInit, s, t => t.pipeInit = s.pipeInit
  | .faultMarks, s, t => t.fault = s.fault ∧ t.faultCode = s.faultCode

/-! ## Sequences of register writes -/

/-- One write of the Status Register's flags. -/
inductive FlagWrite where
  | online (v : Bool)
  | battGood (g : Bool)
deriving DecidableEq, Repr

/-- The test-port event of a write (40_status_register.md R101, R102). -/
def FlagWrite.event : FlagWrite → Instr
  | .online v => .tpSetOnline v
  | .battGood g => .tpSetBatteryGood g

/-- The value written to ONLINE, if it is ONLINE that is written. -/
def FlagWrite.onLine? : FlagWrite → Option Bool
  | .online v => some v
  | .battGood _ => none

/-- The value written to BATTGOOD, if it is BATTGOOD that is written. -/
def FlagWrite.batteryGood? : FlagWrite → Option Bool
  | .online _ => none
  | .battGood g => some g

/-! ## Two runs compared -/

/-- The states agree on every element but `S.rx_buf`. -/
abbrev SameButRxBuf (a b : State) : Prop := b = { a with rxBuf := b.rxBuf }

/-- An output event without the frame it carries. -/
def withoutFrame : OutEvent → OutEvent
  | .txInt ep n _ => .txInt ep n ⟨0, 0, 0, 0, 0, 0⟩
  | .tpFrame _ => .tpFrame ⟨0, 0, 0, 0, 0, 0⟩
  | e => e

/-- The states agree on every element but `S.SR`, and their traces but for the frames in them. -/
abbrev SameButRegister (a b : State) : Prop :=
  b = { a with sr := b.sr, trace := b.trace } ∧
    b.trace.map withoutFrame = a.trace.map withoutFrame

end Sys2Proof.Machine
end

