-- ==== Sys2Proof/Certificates/Slice0/Obligations.lean ====
section
/-! DEFINITION. The statements for the provers. A docstring names the rule of spec/ a statement
formalises, or says what it rests on. -/

open Sys2Proof Sys2Proof.Machine

/-! ## Reset -/

/-- The reset values at power-on and after RESET, which every state accepts, whose output trace is
empty, which repeated changes nothing, and after which TP_SERIALIZE shows six zero bytes (derived:
10_state.md section 3, 41_control_transfer.md section 2; that the trace is a field that RESET empties
is log entry 3, and that a second RESET leaves the same receive buffer log entry 7). -/
def Obligations.ResetGivesResetValues : Prop :=
  HasResetValues State.reset ∧
  (∀ rest : List Byte, decode (0x00 :: rest) = .event .reset rest) ∧
  ∀ s : State, ∃ t : State,
    exec .reset s = .next t ∧ HasResetValues t ∧ t.trace = [] ∧ exec .reset t = .next t ∧
      ∃ u : State, exec .tpSerialize t = .next u ∧ u.trace = [.tpFrame ⟨0, 0, 0, 0, 0, 0⟩]

/-- A RESET keeps what is the environment's: the deliveries, the parameters and the numbering of free
values (the model's own fields, log entries 1, 4 and 8), and clears the marks of a faulted or
refused block (41_control_transfer.md section 1: "any | RESET | - | all state to reset values"). -/
def Obligations.ResetRevivesAndKeepsEnvironment : Prop :=
  ∀ s t : State, exec .reset s = .next t →
    Live t ∧ t.input = s.input ∧ t.params = s.params ∧ t.freeIdx = s.freeIdx

/-! ## Invariants of every step -/

/-- The invariants hold at power-on, for every admitted parameter (derived from 10_state.md section 3
and 70_reset_and_hazards.md section 1). -/
def Obligations.InvariantsHoldAtPowerOn : Prop :=
  ∀ p : Params,
    BlockInv (powerOn p) ∧ CountsTransactions (powerOn p) ∧ OnTrajectory (powerOn p) ∧
      AnnouncedOnce (powerOn p) ∧ OneInFlight (powerOn p) ∧ ClaimsCoverReplies (powerOn p) ∧
      OutputsLegal (powerOn p)

/-- Every step keeps the machine's invariant: legal transaction state, counter within CNT_W bits, the
two configuration flags equal, no transaction before registration, marks that agree, and none of
the codes 4, 5 and 7 (derived: the spec's own inference in 41_control_transfer.md section 5, R137
"FLT_TX_PIPE_UNINIT is unreachable"). -/
def Obligations.StepKeepsInvariant : Prop :=
  ∀ s t : State, BlockInv s → step s = .next t → BlockInv t

/-- Every step keeps the counter equal to the number of completed transactions since RESET modulo
2^CNT_W, and the numbers of LED toggles and of submitted replies equal to that number (derived:
41_control_transfer.md section 5, R136, an inference of the spec's own; with wrap or fault at the
top, D8). -/
def Obligations.StepKeepsCountOfTransactions : Prop :=
  ∀ s t : State, CountsTransactions s → step s = .next t → CountsTransactions t

/-- Every event but a test-port write keeps the flags on the trajectory, a wrap of the counter
included (derived: 42_demo_schedule.md R164 and R167, inferences of the spec's own). -/
def Obligations.EventsKeepTrajectory : Prop :=
  ∀ (i : Instr) (s t : State), isTestWrite i = false → OnTrajectory s → exec i s = .next t →
    OnTrajectory t

/-- Every step keeps the trace's record of the configuration: REG_HANDLER and then PIPE_INIT 01 01 20,
once each, exactly if the handler is registered (derived: 41_control_transfer.md section 3, R123,
an inference of the spec's own). -/
def Obligations.StepKeepsAnnouncedOnce : Prop :=
  ∀ s t : State, AnnouncedOnce s → step s = .next t → AnnouncedOnce t

/-- Only the first CONFIG announces: an event whose outputs hold REG_HANDLER or PIPE_INIT is a CONFIG
that an unregistered block takes (derived: 41_control_transfer.md section 3, R123 "Both come from
the first CONFIG", an inference of the spec's own). -/
def Obligations.OnlyFirstConfigAnnounces : Prop :=
  ∀ (i : Instr) (s t : State), exec i s = .next t →
    (t.trace.drop s.trace.length).any isConfigOutput = true →
    Live s ∧ s.registered = false ∧ ∃ cfg, i = .config cfg

/-- With SETUP_IN_PENDING = FAULT every step keeps the account of transactions: claimed = acknowledged
+ stalled + the one in flight (derived: 20_memory.md section 3, R55, with the decision D6). -/
def Obligations.StepKeepsOneTransactionInFlight : Prop :=
  ∀ s t : State, s.params.setupInPending = .fault → OneInFlight s → step s = .next t → OneInFlight t

/-- Under every parameter, REMATCH included, every step keeps: the transactions acknowledged, stalled
or in flight are no more than those claimed, the others having been abandoned (derived:
20_memory.md section 3, R55, and 41_control_transfer.md section 4, R127, the decisions D6 and D5 of
the spec's own). -/
def Obligations.StepKeepsRepliesWithinClaims : Prop :=
  ∀ s t : State, ClaimsCoverReplies s → step s = .next t → ClaimsCoverReplies t

/-- Every step keeps the outputs within R81's operands: each reply on endpoint 1 with length 6 and one
of the four frames of R106 (derived: 30_encoding.md section 3, the encoding decided by D2, and
40_status_register.md R106, an inference of the spec's own). -/
def Obligations.StepKeepsOutputsLegal : Prop :=
  ∀ s t : State, OutputsLegal s → step s = .next t → OutputsLegal t

/-! ## The Status Register -/

/-- R101, R105: setOnline writes bit 2 of byte 3 and nothing else, as the byte formula says, from
every state that takes events; its value byte is 0x00 or 0x01 and any other is refused. -/
def Obligations.SetOnlineWritesBitTwoOnly : Prop :=
  (∀ (s : State) (v : Bool), Live s → ∃ t : State,
    exec (.tpSetOnline v) s = .next t ∧ t = { s with sr := t.sr } ∧
      t.sr.onLine = v ∧ t.sr.batteryGood = s.sr.batteryGood ∧
      serialize t.sr = { serialize s.sr with
        b3 := ((serialize s.sr).b3 &&& ~~~(0x04 : Byte)) ||| (tpValueByte v <<< 2) }) ∧
  ∀ (b : Byte) (rest : List Byte), ∃ left : List Byte, decode (0x10 :: b :: rest) =
    if b = 0x00 then .event (.tpSetOnline false) rest
    else if b = 0x01 then .event (.tpSetOnline true) rest
    else .refused .badTpValue left

/-- R102: setBatteryGood writes bit 1 of byte 3 and nothing else. -/
def Obligations.SetBatteryGoodWritesBitOneOnly : Prop :=
  (∀ (s : State) (g : Bool), Live s → ∃ t : State,
    exec (.tpSetBatteryGood g) s = .next t ∧ t = { s with sr := t.sr } ∧
      t.sr.batteryGood = g ∧ t.sr.onLine = s.sr.onLine ∧
      serialize t.sr = { serialize s.sr with
        b3 := ((serialize s.sr).b3 &&& ~~~(0x02 : Byte)) ||| (tpValueByte g <<< 1) }) ∧
  ∀ (b : Byte) (rest : List Byte), ∃ left : List Byte, decode (0x11 :: b :: rest) =
    if b = 0x00 then .event (.tpSetBatteryGood false) rest
    else if b = 0x01 then .event (.tpSetBatteryGood true) rest
    else .refused .badTpValue left

/-- A refused test-port write takes its two bytes, and what follows them is the next event (derived:
30_encoding.md section 3, R83 with the decision D27; the bytes that a refusal takes are log
entry 2). -/
def Obligations.BadTpValueLeavesTheNextEvent : Prop :=
  ∀ (t b : Byte) (rest : List Byte), t = 0x10 ∨ t = 0x11 → 1 < b.toNat →
    decode (t :: b :: rest) = .refused .badTpValue rest

/-- R103: TP_SERIALIZE emits the frame and writes nothing; a second one emits the same frame; bytes
0, 1, 2, 4 and 5 are zero and byte 3 is one of the four values. -/
def Obligations.SerializeEmitsFrameAndNothingElse : Prop :=
  (∀ s : State, Live s → ∃ (t : State) (b3 : Byte),
    exec .tpSerialize s = .next t ∧
      b3 = (tpValueByte s.sr.onLine <<< 2) ||| (tpValueByte s.sr.batteryGood <<< 1) ∧
      b3 ∈ ([0x00, 0x02, 0x04, 0x06] : List Byte) ∧
      t = { s with trace := s.trace ++ [.tpFrame ⟨0, 0, 0, b3, 0, 0⟩] } ∧
      exec .tpSerialize t = .next { t with trace := t.trace ++ [.tpFrame ⟨0, 0, 0, b3, 0, 0⟩] }) ∧
  ∀ rest : List Byte, decode (0x12 :: rest) = .event .tpSerialize rest

/-- The register's places: as one 48-bit number ONLINE is bit 26, BATTGOOD bit 25, and every other
bit is hardwired zero (derived: 10_state.md section 2, R24 and R27, inferences of the spec's own;
the 48-bit view is the spec's choice D16). -/
def Obligations.RegisterBitsAtTwentySixAndTwentyFive : Prop :=
  ∀ (r : StatusReg) (k : Nat), (statusWord48 r).getLsbD k =
    ((decide (k = 26) && r.onLine) || (decide (k = 25) && r.batteryGood))

/-- Each flag reads back the last value written to it, whatever was written to the other (derived:
40_status_register.md R104, an inference of the spec's own). -/
def Obligations.FlagsReadBackTheirLastWrites : Prop :=
  ∀ (ws : List FlagWrite) (s : State), Live s → ∃ t : State,
    runEvents (ws.map FlagWrite.event) s = .next t ∧ t = { s with sr := t.sr } ∧
      t.sr.onLine = ((ws.filterMap FlagWrite.onLine?).getLast?).getD s.sr.onLine ∧
      t.sr.batteryGood = ((ws.filterMap FlagWrite.batteryGood?).getLast?).getD s.sr.batteryGood

/-- The register reaches nothing but itself and the frames: two states that differ in it alone, and
in the frames emitted, are led by every event to two such states (derived: 10_state.md section 2,
"Only serialize ... reads it"). -/
def Obligations.RegisterReachesOnlyFrames : Prop :=
  ∀ (i : Instr) (a b : State), SameButRegister a b → ∃ a' b' : State,
    exec i a = .next a' ∧ exec i b = .next b' ∧ SameButRegister a' b'

/-! ## CONFIG -/

/-- The first CONFIG registers, initialises the pipe and announces both; a later one changes nothing;
the value is ignored (derived: 41_control_transfer.md section 3, whose output order and ignored
operand are the spec's decisions D26 and D11). -/
def Obligations.ConfigRegistersOnce : Prop :=
  ∀ (s : State) (cfg : Byte), Live s → exec (.config cfg) s = .next
    (if s.registered = true then s else
      { s with
        registered := true, pipeInit := true,
        trace := s.trace ++ [.regHandler, .pipeInit 1 1 32] })

/-! ## SETUP -/

/-- A SETUP of the signature is claimed by a registered block, in AWAITING_SETUP, COMPLETE and, under
REMATCH, DATA_PENDING: the receive is armed and its data stage awaited; the armed buffer holds a
free value (derived: 41_control_transfer.md section 4; the direction bit is decision D4, the output
order D26, the free value log entry 8). -/
def Obligations.SignatureSetupIsClaimed : Prop :=
  ∀ (s : State) (dir : BitVec 1), Live s → s.registered = true → SetupAllowed s →
    (s.params.matchDir = .ignore ∨ dir = 0) →
    exec (.setupSig dir) s = .next
      { s with
        rxBuf := Config.armedRxBuf s.freeIdx, freeIdx := s.freeIdx + 1, txnState := .dataPending,
        trace := s.trace ++ [.armRx 4, .respClaimed] }

/-- R125, R188: a SETUP that does not match the signature is declined; nothing but the
transaction state is written, no mark is set and the block takes the next event. The ill-formed
terms of SETUP_OTHER are TwoNamesOfOneSetup's. -/
def Obligations.OtherSetupIsDeclined : Prop :=
  ∀ (s : State) (p : SetupPacket), Live s → s.registered = true → SetupAllowed s →
    sigMatch s.params.matchDir p = false →
    ∃ t : State,
      t = { s with txnState := .awaitingSetup, trace := s.trace ++ [.respDeclined] } ∧ Live t ∧
        exec (setupEvent p) s = .next t ∧
        ((Instr.setupOther p).wellFormed = true → exec (.setupOther p) s = .next t)

/-- The table's two rows for SETUP are one event: under either name a packet has the same effect, an
ill-formed SETUP_OTHER with the signature's fields included (derived: 41_control_transfer.md
section 4, R124, one rule for every packet; which name the decoder gives a packet is log
entry 14). -/
def Obligations.TwoNamesOfOneSetup : Prop :=
  ∀ (p : SetupPacket) (s : State), exec (.setupOther p) s = exec (setupEvent p) s

/-- Before the first CONFIG every SETUP is declined and changes no state (derived:
41_control_transfer.md section 4, R126, the spec's decision D17). -/
def Obligations.SetupBeforeConfigIsDeclined : Prop :=
  ∀ (s : State) (p : SetupPacket), Live s → s.registered = false →
    exec (setupEvent p) s = .next { s with trace := s.trace ++ [.respDeclined] }

/-- With SETUP_IN_PENDING = FAULT a SETUP while a data stage is awaited raises fault 2 and does
nothing else, whatever its packet (derived: 41_control_transfer.md section 4, R127, the spec's
decision D6). -/
def Obligations.SetupWhilePendingFaults : Prop :=
  ∀ (s : State) (p : SetupPacket), Live s → s.registered = true → s.txnState = .dataPending →
    s.params.setupInPending = .fault →
    exec (setupEvent p) s =
      .next { s with fault := true, faultCode := 2, trace := s.trace ++ [.fault 2] }

/-- A registered block that is not in DATA_PENDING claims a SETUP if and only if every compared field
is the signature's (derived: 41_control_transfer.md R129, an inference of the spec's own;
MATCH_DIR is decision D4). -/
def Obligations.ClaimIffEveryFieldMatches : Prop :=
  ∀ (s t : State) (p : SetupPacket), Live s → s.registered = true → s.txnState ≠ .dataPending →
    exec (setupEvent p) s = .next t →
    (.respClaimed ∈ t.trace.drop s.trace.length ↔
      p.recipient = 1 ∧ p.reqType = 1 ∧ p.request = 0x09 ∧ p.value = 0x0200 ∧ p.index = 0x0000 ∧
        p.length = 4 ∧ (s.params.matchDir = .hostToDevice → p.dir = 0))

/-- The signature as a masked 64-bit word (derived: 30_encoding.md R75, an inference of the spec's
own from the packet layout it takes from general knowledge, D3). -/
def Obligations.SignatureIsMaskedWord : Prop :=
  ∀ (md : MatchDir) (p : SetupPacket),
    sigMatch md p = true ↔ leWord64 p.bytes &&& setupMask md = setupMatch

/-! ## DATA -/

/-- A completed DATA step emits LED_TOGGLE, STATUS_ACK and TX_INT in this order, the frame of the
register after this transaction's schedule update, and leaves the payload stored, the counter
advanced, COMPLETE, nothing else written (derived: 41_control_transfer.md section 5, R131 and R135;
the short data stage under LEN_CHECK = OFF is R132's decision D5, the counter's wrap the decision
D8, and that the buffer holds the payload log entry 9). -/
def Obligations.DataUpdatesAcknowledgesTransmits : Prop :=
  ∀ (s : State) (len : Byte) (d : Payload), DataCompletes len s →
    exec (.data len d) s = .next
      { s with
        rxBuf := d, seqCnt := nextCount s, sr := sched s.seqCnt s.sr, txnState := .complete,
        trace := s.trace ++ [.ledToggle, .statusAck, .txInt 1 6 (serialize (sched s.seqCnt s.sr))] }

/-- A data stage of another length than 4 (derived: 41_control_transfer.md section 5, R132, the spec's
decision D5): under LEN_CHECK = ON the status stage is stalled and nothing counts; under OFF a
longer one raises fault 3 and a shorter one is a data stage of 4. -/
def Obligations.WrongLengthIsStalledOrOverruns : Prop :=
  ∀ (s : State) (len : Byte) (d : Payload), Live s → s.txnState = .dataPending → len ≠ 4 →
    exec (.data len d) s =
      match s.params.lenCheck with
      | .on => .next { s with txnState := .awaitingSetup, trace := s.trace ++ [.statusStall] }
      | .off =>
        if 4 < len.toNat then
          .next { s with fault := true, faultCode := 3, trace := s.trace ++ [.fault 3] }
        else exec (.data 4 d) s

/-- A DATA with nothing armed raises fault 1 and does nothing else, whatever its length (derived:
41_control_transfer.md section 5, R133, the spec's decision D7). -/
def Obligations.UnsolicitedDataFaults : Prop :=
  ∀ (s : State) (len : Byte) (d : Payload), Live s → s.txnState ≠ .dataPending →
    exec (.data len d) s =
      .next { s with fault := true, faultCode := 1, trace := s.trace ++ [.fault 1] }

/-- The last two checks of DATA: with CNT_OVERFLOW = FAULT the counter's top raises fault 6, before
the missing pipe's fault 5 (derived: 60_exceptions.md R192, an inference of the spec's own;
CNT_OVERFLOW is decision D8). -/
def Obligations.CounterTopFaultsBeforeMissingPipe : Prop :=
  ∀ (s : State) (d : Payload), Live s → s.txnState = .dataPending →
    (s.seqCnt = 2 ^ cntWidth s.params - 1 → s.params.cntOverflow = .fault →
      exec (.data 4 d) s =
        .next { s with fault := true, faultCode := 6, trace := s.trace ++ [.fault 6] }) ∧
    ((s.seqCnt = 2 ^ cntWidth s.params - 1 → s.params.cntOverflow = .wrap) → s.pipeInit = false →
      exec (.data 4 d) s =
        .next { s with fault := true, faultCode := 5, trace := s.trace ++ [.fault 5] })

/-- Two DATA events that differ in the payload alone lead to the same state and outputs, `S.rx_buf`
apart, whose contents R32 makes unobservable (derived: 41_control_transfer.md section 5, R134; that
the buffer is kept is the model's choice, log entry 9). -/
def Obligations.PayloadIsNeverInspected : Prop :=
  ∀ (s : State) (len : Byte) (d d' : Payload), ∃ t t' : State,
    exec (.data len d) s = .next t ∧ exec (.data len d') s = .next t' ∧ SameButRxBuf t t'

/-- Nothing that `S.rx_buf` holds reaches anything else: two states that differ in it alone are led by
every event to two such states (derived: 10_state.md section 3, R32, the spec's decision D31). -/
def Obligations.ReceiveBufferIsNeverRead : Prop :=
  ∀ (i : Instr) (a b : State), SameButRxBuf a b → ∃ a' b' : State,
    exec i a = .next a' ∧ exec i b = .next b' ∧ SameButRxBuf a' b'

/-- Only RESET, DATA and, under REMATCH, a SETUP end a wait for a data stage; with nothing delivered
it goes on for ever (derived: 41_control_transfer.md section 5, R139; the queue of deliveries and
the step that waits are log entry 1). -/
def Obligations.PendingTransactionHasNoTimeout : Prop :=
  (∀ (i : Instr) (s t : State), s.txnState = .dataPending → exec i s = .next t →
    t.txnState ≠ .dataPending →
    i = .reset ∨ (∃ len d, i = .data len d) ∨
      (((∃ dir, i = .setupSig dir) ∨ ∃ p, i = .setupOther p) ∧
        s.params.setupInPending = .rematch)) ∧
  ∀ (s : State) (k : Nat), s.txnState = .dataPending → s.input = [] →
    core.run k s = .next s

/-- Matching, receiving and replying compose: from an idle registered block whose counter is below its
top, a signature SETUP and its data stage submit one reply, the register after its schedule update
(derived: 41_control_transfer.md section 1, the state table, decisions of the spec's own included;
95_test_vectors.md part 1, W1). -/
def Obligations.TransactionEndsInItsReply : Prop :=
  ∀ (s : State) (d : Payload), Live s → s.registered = true → s.pipeInit = true →
    s.txnState ≠ .dataPending → s.seqCnt ≠ 2 ^ cntWidth s.params - 1 →
    ∃ u : State, runEvents [.setupSig 0, .data 4 d] s = .next u ∧
      u.sr = sched s.seqCnt s.sr ∧ u.seqCnt = s.seqCnt + 1 ∧ u.txnState = .complete ∧
      u.trace = s.trace ++ [.armRx 4, .respClaimed] ++ replyOutputs u.sr

/-! ## Schedule and counter -/

/-- R160: the schedule at its five counts, and nothing at any other. -/
def Obligations.ScheduleAtItsFiveCounts : Prop :=
  (∀ r : StatusReg,
    sched 0 r = ⟨true, true⟩ ∧ sched 30 r = ⟨false, r.batteryGood⟩ ∧
      sched 40 r = ⟨true, r.batteryGood⟩ ∧ sched 50 r = ⟨false, r.batteryGood⟩ ∧
      sched 60 r = ⟨r.onLine, false⟩) ∧
  ∀ (c : Nat) (r : StatusReg), c ∉ [0, 30, 40, 50, 60] → sched c r = r

/-- R162: the schedule sees the counter from before the step, the counter then holds its increment;
so the n-th completed transaction since RESET runs sched (n - 1) and leaves the counter at n, up to
the counter's top. -/
def Obligations.ScheduleSeesCountBeforeIncrement : Prop :=
  ∀ (s t : State) (len : Byte) (d : Payload), exec (.data len d) s = .next t →
    s.txnState = .dataPending → t.txnState = .complete →
    (t.sr = sched s.seqCnt s.sr ∧ inc s.params s.seqCnt = .ok t.seqCnt) ∧
    (CountsTransactions s → completed s + 1 ≤ 2 ^ cntWidth s.params - 1 →
      completed t = completed s + 1 ∧ t.sr = sched (completed t - 1) s.sr ∧
        t.seqCnt = completed t)

/-- R166: at every other count the register stays as it is, and the DATA step still increments the
counter, toggles the LED, acknowledges and transmits. -/
def Obligations.OtherCountsLeaveRegister : Prop :=
  ∀ c : Nat, c ∉ [0, 30, 40, 50, 60] →
    (∀ r : StatusReg, sched c r = r) ∧
    ∀ (s : State) (len : Byte) (d : Payload), s.seqCnt = c → DataCompletes len s → ∃ t : State,
      exec (.data len d) s = .next t ∧ t.sr = s.sr ∧ t.seqCnt = nextCount s ∧
        t.trace = s.trace ++ replyOutputs s.sr

/-- The source's checkpoints, in every run from power-on without test-port writes, for every admitted
parameter, whatever else the stack delivers (derived: 42_demo_schedule.md, R165; that the trace in
which the transactions since RESET are counted is emptied by RESET is log entry 3). -/
def Obligations.ScheduleCheckpoints : Prop :=
  ∀ (p : Params) (es : List Instr) (t : State), (∀ i ∈ es, isTestWrite i = false) →
    runEvents es (powerOn p) = .next t →
    (completed t = 1 → t.sr.onLine = true ∧ t.sr.batteryGood = true ∧ t.seqCnt = 1) ∧
    (completed t = 31 → t.sr.onLine = false ∧ t.seqCnt = 31) ∧
    (completed t = 41 → t.sr.onLine = true ∧ t.seqCnt = 41) ∧
    (completed t = 51 → t.sr.onLine = false ∧ t.seqCnt = 51) ∧
    (completed t = 61 → t.sr.onLine = false ∧ t.sr.batteryGood = false ∧ t.seqCnt = 61)

/-- The increment: one more, and at 2^CNT_W - 1 the parameter CNT_OVERFLOW decides (derived:
42_demo_schedule.md R161, the spec's decision D8). -/
def Obligations.IncrementWrapsOrFaultsAtTop : Prop :=
  ∀ (p : Params) (c : Nat), c < 2 ^ cntWidth p →
    (c + 1 < 2 ^ cntWidth p → inc p c = .ok (c + 1)) ∧
    (c + 1 = 2 ^ cntWidth p → p.cntOverflow = .wrap → inc p c = .ok 0) ∧
    (c + 1 = 2 ^ cntWidth p → p.cntOverflow = .fault → inc p c = .error .cntOverflow)

/-- Only a completed transaction moves the counter (derived: 42_demo_schedule.md R169, an inference of
the spec's own): an event but RESET after which it differs is a DATA that was awaited, of an
accepted length, which replied and is complete. -/
def Obligations.OnlyCompletedTransactionsCount : Prop :=
  ∀ (i : Instr) (s t : State), i ≠ .reset → exec i s = .next t → t.seqCnt ≠ s.seqCnt →
    ∃ len d, i = .data len d ∧ (len = 4 ∨ (s.params.lenCheck = .off ∧ len.toNat < 4)) ∧
      s.txnState = .dataPending ∧ t.txnState = .complete ∧
      t.trace = s.trace ++ replyOutputs t.sr

/-! ## Dispatch, faults and refusals -/

/-- A faulted or refused block ignores every event but RESET (derived: 41_control_transfer.md section
1, R120, the spec's decisions D1 and D15). -/
def Obligations.MarkedBlockIsQuiescent : Prop :=
  ∀ (i : Instr) (s : State), i ≠ .reset → s.fault = true ∨ s.refused = true → exec i s = .next s

/-- In the unused transaction state every event but RESET raises fault 4 (derived: 60_exceptions.md
section 1, R184, an inference and the decision D12 of the spec's own; it follows R184 where R37's
table gives the test port no write of the fault marks, log entry 18). -/
def Obligations.IllegalStateFaults : Prop :=
  ∀ (i : Instr) (s : State), i ≠ .reset → s.fault = false → s.refused = false →
    s.txnState = .illegal →
    exec i s = .next { s with fault := true, faultCode := 4, trace := s.trace ++ [.fault 4] }

/-- A fault is precise: the state after it is the state before it, plus the marks and FAULT(code) of
one of the six codes (derived: 60_exceptions.md section 1, R185, the spec's decision D15). -/
def Obligations.FaultsArePrecise : Prop :=
  ∀ (i : Instr) (s t : State), exec i s = .next t → s.fault = false → t.fault = true →
    ∃ c : BitVec 3, 1 ≤ c.toNat ∧ c.toNat ≤ 6 ∧
      t = { s with fault := true, faultCode := c, trace := s.trace ++ [.fault c] }

/-- Only RESET clears a mark, and no event sets the refusal mark (derived: 10_state.md section 3, R33
and R34, the spec's decisions D15 and D28). -/
def Obligations.OnlyResetClearsMarks : Prop :=
  ∀ (i : Instr) (s t : State), i ≠ .reset → exec i s = .next t →
    t.refused = s.refused ∧ (s.fault = true → t.fault = true ∧ t.faultCode = s.faultCode)

/-- What each event may write (derived: 10_state.md section 3, R37's table, an inference of the spec's
own; the fault marks in a legal transaction state, log entry 18): every element it may not write
keeps its value; no event writes the deliveries or the parameters, and no event but RESET the
refusal mark. -/
def Obligations.EventsWriteOnlyTheirElements : Prop :=
  ∀ (i : Instr) (s t : State), exec i s = .next t →
    (∀ e : Element, mayWrite e i = false → (e = .faultMarks → s.txnState ≠ .illegal) →
      keeps e s t) ∧
    t.input = s.input ∧ t.params = s.params ∧ (i ≠ .reset → t.refused = s.refused)

/-- The output trace only grows, but for RESET (derived: 20_memory.md section 3, R57, an inference of
the spec's own). -/
def Obligations.TraceOnlyGrows : Prop :=
  ∀ (i : Instr) (s t : State), i ≠ .reset → exec i s = .next t → s.trace <+: t.trace

/-- What an event does does not depend on what was output before: transactions share the register and
the counter and nothing else (derived: 41_control_transfer.md section 5, R140). -/
def Obligations.EarlierOutputsAreNeverRead : Prop :=
  ∀ (i : Instr) (s t : State) (tr : List OutEvent), i ≠ .reset → exec i s = .next t →
    exec i { s with trace := tr } =
      .next { t with trace := tr ++ t.trace.drop s.trace.length }

/-- A stack that keeps its contract never meets a fault: from every state of the invariant that takes
events, an event the stack may send leaves the block without marks, if the counter has room or
wraps (derived: 60_exceptions.md section 5, R195, with the spec's decisions D5, D6, D7 and D8). -/
def Obligations.ContractKeepsBlockAlive : Prop :=
  ∀ (i : Instr) (s t : State), BlockInv s → Live s → stackMay s i = true →
    (s.seqCnt = 2 ^ cntWidth s.params - 1 → s.params.cntOverflow = .wrap) →
    exec i s = .next t → Live t

/-! ## Steps -/

/-- A step runs the decoded event on the state less its bytes; what follows them in the delivery is
the next event (derived: 30_encoding.md section 3, R83, the spec's decision D2; the queue of
deliveries is the model's, log entry 1). -/
def Obligations.StepRunsDecodedEvent : Prop :=
  ∀ (s : State) (bytes rest : List Byte) (q : List (List Byte)) (i : Instr),
    s.input = bytes :: q → decode bytes = .event i rest →
    step s = exec i { s with input := if rest = [] then q else rest :: q }

/-- A step on a byte string that is no event sets the refusal mark and does nothing else, in a faulted
block too (derived: 60_exceptions.md section 3, R190, the spec's decision D28; the faulted block is
log entry 13, the bytes taken log entry 2). -/
def Obligations.StepRefusesWhatIsNoEvent : Prop :=
  ∀ (s : State) (bytes rest : List Byte) (q : List (List Byte)) (r : RefuseReason),
    s.input = bytes :: q → decode bytes = .refused r rest →
    step s = .next { s with refused := true, input := if rest = [] then q else rest :: q }

/-- A step never ends in the host's outcomes fault or refused: it always has a next state, and with
nothing delivered it is the same state (derived: 70_reset_and_hazards.md section 3, R220; the wait
is log entry 1, the marks in place of stops log entry 12). -/
def Obligations.EveryStepHasANextState : Prop :=
  ∀ s : State, (∃ t, step s = .next t) ∧ (s.input = [] → step s = .next s)

/-- A run ends at the end of the input or at the next RESET and nowhere else: at its end a step waits or
starts a new run, from the reset values and an empty trace; before it a step adds to the run's trace,
and a run that is faulted or refused does not come to end well (derived: 60_exceptions.md section 5,
R196, the spec's decisions D1 and D10, and section 1, "A faulted run is never a successful end
state"; the queue of deliveries is log entry 1, the trace emptied by RESET log entry 3). -/
def Obligations.RunEndsAtInputEndOrNextReset : Prop :=
  ∀ s t : State, step s = .next t →
    (runEnds s = true → (s.input = [] ∧ t = s) ∨ (HasResetValues t ∧ t.trace = [])) ∧
    (runEnds s = false →
      s.trace <+: t.trace ∧ (s.fault = true ∨ s.refused = true → ¬ EndsWell t))

/-! ## Encodings -/

/-- Decoding the encoding of a well-formed event gives it back with what follows, every operand at
every value (derived: 30_encoding.md section 3, the spec's decision D2). -/
def Obligations.DecodeOfEncode : Prop :=
  ∀ (i : Instr) (rest : List Byte), i.wellFormed = true → decode (encode i ++ rest) = .event i rest

/-- Every byte string the decoder reads as an event begins with that event's encoding, and the event
is well-formed: each event has one spelling (derived: 30_encoding.md section 3, the spec's
decisions D2 and D27). -/
def Obligations.EncodeOfDecode : Prop :=
  ∀ (bytes rest : List Byte) (i : Instr), decode bytes = .event i rest →
    i.wellFormed = true ∧ bytes = encode i ++ rest

/-- When a byte string is refused, and for what (derived: 30_encoding.md section 3, R82 and R83, the
spec's decisions D27 and D28). -/
def Obligations.DecoderRefusesByName : Prop :=
  ∀ bytes : List Byte,
    ((∃ rest, decode bytes = .refused .unknownTag rest) ↔
      ∃ t ops, bytes = t :: ops ∧ ((0x04 ≤ t.toNat ∧ t.toNat ≤ 0x0F) ∨ 0x13 ≤ t.toNat)) ∧
    ((∃ rest, decode bytes = .refused .truncated rest) ↔
      bytes = [] ∨ ∃ t ops n, bytes = t :: ops ∧ bytes.length < n ∧
        (t, n) ∈ ([(0x00, 1), (0x01, 2), (0x02, 9), (0x03, 6), (0x10, 2), (0x11, 2), (0x12, 1)] :
          List (Byte × Nat))) ∧
    ((∃ rest, decode bytes = .refused .badTpValue rest) ↔
      ∃ t v ops, bytes = t :: v :: ops ∧ (t = 0x10 ∨ t = 0x11) ∧ 1 < v.toNat)

/-- The eight bytes of a SETUP packet and its fields determine each other (derived: 30_encoding.md
section 1, R71 to R73, taken by the spec from general knowledge, D3). -/
def Obligations.SetupPacketBytesAndFieldsAgree : Prop :=
  (∀ p : SetupPacket, ∃ p0 p1 p2 p3 p4 p5 p6 p7 : Byte,
    p.bytes = [p0, p1, p2, p3, p4, p5, p6, p7] ∧ decodePacket p0 p1 p2 p3 p4 p5 p6 p7 = p) ∧
  ∀ p0 p1 p2 p3 p4 p5 p6 p7 : Byte,
    (decodePacket p0 p1 p2 p3 p4 p5 p6 p7).bytes = [p0, p1, p2, p3, p4, p5, p6, p7]

/-- A few words written out from R77 and the spec's vectors decode to their events (sanity; derived:
30_encoding.md section 3; 95_test_vectors.md section 2.6). -/
def Obligations.WrittenOutWordsDecode : Prop :=
  decode [0x00] = .event .reset [] ∧ decode [0x01, 0x07] = .event (.config 7) [] ∧
  decode [0x02, 0x21, 0x09, 0x00, 0x02, 0x00, 0x00, 0x04, 0x00] = .event (.setupSig 0) [] ∧
  decode [0x02, 0x80, 0x06, 0x00, 0x01, 0x00, 0x00, 0x12, 0x00] =
    .event (.setupOther ⟨1, 0, 0, 6, 0x0100, 0, 0x12⟩) [] ∧
  decode [0x03, 0x04, 0xDE, 0xAD, 0xBE, 0xEF] = .event (.data 4 ⟨0xDE, 0xAD, 0xBE, 0xEF⟩) [] ∧
  decode [0x10, 0x01] = .event (.tpSetOnline true) [] ∧
  decode [0x11, 0x00] = .event (.tpSetBatteryGood false) [] ∧
  decode [0x12] = .event .tpSerialize []

/-- An output event can be read back from its bytes: two events with the same bytes are the same, and
every first byte is a tag from 0x80 to 0x8F (derived: 30_encoding.md section 3, R81, the spec's
decision D2; the fault code's byte is log entry 15). -/
def Obligations.OutputBytesDetermineEvent : Prop :=
  (∀ e e' : OutEvent, outBytes e = outBytes e' → e = e') ∧
  ∀ e : OutEvent, ∃ t ops, outBytes e = t :: ops ∧ 0x80 ≤ t.toNat ∧ t.toNat ≤ 0x8F

/-- The pipe that CONFIG initialises is the one endpoint of the device's identity: its number, its
direction bit and its packet size (derived: 10_state.md section 4, R42 and R43, the address's form
from general knowledge G5, log entry 16). -/
def Obligations.PipeIsTheIdentitysEndpoint : Prop :=
  usbIdentity.endpointAddresses = [0x81] ∧ usbIdentity.maxPacketSize = 32 ∧
  ∀ (s t : State) (cfg : Byte), Live s → s.registered = false → exec (.config cfg) s = .next t →
    ∃ ep dir mps : Byte, .pipeInit ep dir mps ∈ t.trace.drop s.trace.length ∧
      [endpointAddress dir ep] = usbIdentity.endpointAddresses ∧
      mps.setWidth 16 = usbIdentity.maxPacketSize

/-- The pseudo-event TXN is SIGSETUP and a DATA of 4 bytes (derived: 30_encoding.md section 4, R85,
the spec's decision D25). -/
def Obligations.TxnLineIsSetupThenData : Prop :=
  ∀ d : Payload, eventLine "TXN".toList [d.d0, d.d1, d.d2, d.d3] =
    some (encode (.setupSig 0) ++ encode (.data 4 d))
end

