-- ==== Sys2Proof/Laws/Decode.lean ====
section
/-! SUPPORT. The small lemmas of the encodings: 16-bit fields and bmRequestType split and join,
SETUP packets as bytes and as one word, and the decoder on each tag. -/

namespace Sys2Proof

@[simp] theorem lowByte_le16 (lo hi : Byte) : lowByte (le16 lo hi) = lo := by
  ext k hk
  simp [lowByte, le16]

@[simp] theorem highByte_le16 (lo hi : Byte) : highByte (le16 lo hi) = hi := by
  ext k hk
  have h8 : 8 + k < 16 := by omega
  have h16 : k < 16 := by omega
  simp [highByte, le16, h8, h16, BitVec.getLsbD_eq_getElem hk]

@[simp] theorem le16_low_high (h : Half) : le16 (lowByte h) (highByte h) = h := by
  ext k hk
  by_cases h8 : k < 8
  · simp [le16, lowByte, highByte, h8, BitVec.getLsbD_eq_getElem hk]
  · have : 8 + (k - 8) = k := by omega
    simp [le16, lowByte, highByte, h8, this, BitVec.getLsbD_eq_getElem hk]
    omega

/-! ## SETUP packets -/

/-- The three sub-fields of bmRequestType come back from its byte. -/
theorem requestType_fields (p : SetupPacket) :
    p.requestType.extractLsb' 7 1 = p.dir ∧ p.requestType.extractLsb' 5 2 = p.reqType ∧
      p.requestType.extractLsb' 0 5 = p.recipient := by
  have h : ∀ (d : BitVec 1) (t : BitVec 2) (r : BitVec 5),
      let b : Byte := (d.setWidth 8 <<< 7) ||| (t.setWidth 8 <<< 5) ||| r.setWidth 8
      b.extractLsb' 7 1 = d ∧ b.extractLsb' 5 2 = t ∧ b.extractLsb' 0 5 = r := by decide
  exact h p.dir p.reqType p.recipient

/-- bmRequestType is put together again from its sub-fields. -/
theorem requestType_join (b : Byte) :
    ((b.extractLsb' 7 1).setWidth 8 <<< 7) ||| ((b.extractLsb' 5 2).setWidth 8 <<< 5) |||
      (b.extractLsb' 0 5).setWidth 8 = b := by
  revert b; decide

/-- A packet with the signature's six fields is the SETUP_SIG row's, with its own direction. -/
theorem eq_sigPacket_of_fits {p : SetupPacket} (h : p.fitsSignature = true) :
    p = sigPacket p.dir := by
  simp only [SetupPacket.fitsSignature, Bool.and_eq_true, beq_iff_eq] at h
  obtain ⟨⟨⟨⟨⟨h1, h2⟩, h3⟩, h4⟩, h5⟩, h6⟩ := h
  obtain ⟨dir, reqType, recipient, request, value, index, length⟩ := p
  simp only at h1 h2 h3 h4 h5 h6
  subst h1 h2 h3 h4 h5 h6
  rfl

/-- The eight bytes as one 64-bit word, its fields from the top down (R75). -/
theorem leWord64_bytes (p : SetupPacket) :
    Machine.leWord64 p.bytes = p.length ++ (p.index ++ (p.value ++
      (p.request ++ (p.dir ++ (p.reqType ++ p.recipient))))) := by
  obtain ⟨dir, reqType, recipient, request, value, index, length⟩ := p
  apply BitVec.eq_of_getLsbD_eq
  intro k hk
  simp only [BitVec.getLsbD_append]
  interval_cases k <;>
    simp [SetupPacket.bytes, Machine.leWord64, SetupPacket.requestType, lowByte, highByte]

/-! ## The decoder, tag by tag -/

/-- The decoder on a byte string that is not empty. -/
theorem decode_cons (t : Byte) (ops : List Byte) :
    decode (t :: ops) =
      if t = tagReset then .event .reset ops
      else if t = tagConfig then decodeConfig ops
      else if t = tagSetup then decodeSetup ops
      else if t = tagData then decodeData ops
      else if t = tagTpSetOnline then decodeTp .tpSetOnline ops
      else if t = tagTpSetBatteryGood then decodeTp .tpSetBatteryGood ops
      else if t = tagTpSerialize then .event .tpSerialize ops
      else .refused .unknownTag [] := rfl

theorem decode_reset (ops : List Byte) : decode (tagReset :: ops) = .event .reset ops := rfl

theorem decode_config (ops : List Byte) : decode (tagConfig :: ops) = decodeConfig ops := rfl

theorem decode_setup (ops : List Byte) : decode (tagSetup :: ops) = decodeSetup ops := rfl

theorem decode_data (ops : List Byte) : decode (tagData :: ops) = decodeData ops := rfl

theorem decode_tpSetOnline (ops : List Byte) :
    decode (tagTpSetOnline :: ops) = decodeTp .tpSetOnline ops := rfl

theorem decode_tpSetBatteryGood (ops : List Byte) :
    decode (tagTpSetBatteryGood :: ops) = decodeTp .tpSetBatteryGood ops := rfl

theorem decode_tpSerialize (ops : List Byte) :
    decode (tagTpSerialize :: ops) = .event .tpSerialize ops := rfl

@[simp] theorem decodeTpValue_byte (mk : Bool → Instr) (v : Bool) (rest : List Byte) :
    decodeTpValue mk (tpValueByte v) rest = .event (mk v) rest := by
  cases v <;> simp [decodeTpValue, tpValueByte]

end Sys2Proof
end

