-- ==== Sys2Proof/Laws/State.lean ====
section
/-! SUPPORT. What each named write of the state leaves in each field: one lemma per field per
operation, so that no later proof unfolds a record update. -/

namespace Sys2Proof.Machine

variable (s : State)

@[simp] theorem setSr_sr (r : StatusReg) : (setSr r s).sr = r := rfl
@[simp] theorem setSr_seqCnt (r : StatusReg) : (setSr r s).seqCnt = s.seqCnt := rfl
@[simp] theorem setSr_txnState (r : StatusReg) : (setSr r s).txnState = s.txnState := rfl
@[simp] theorem setSr_rxBuf (r : StatusReg) : (setSr r s).rxBuf = s.rxBuf := rfl
@[simp] theorem setSr_registered (r : StatusReg) : (setSr r s).registered = s.registered := rfl
@[simp] theorem setSr_pipeInit (r : StatusReg) : (setSr r s).pipeInit = s.pipeInit := rfl
@[simp] theorem setSr_fault (r : StatusReg) : (setSr r s).fault = s.fault := rfl
@[simp] theorem setSr_faultCode (r : StatusReg) : (setSr r s).faultCode = s.faultCode := rfl
@[simp] theorem setSr_refused (r : StatusReg) : (setSr r s).refused = s.refused := rfl
@[simp] theorem setSr_trace (r : StatusReg) : (setSr r s).trace = s.trace := rfl
@[simp] theorem setSr_input (r : StatusReg) : (setSr r s).input = s.input := rfl
@[simp] theorem setSr_params (r : StatusReg) : (setSr r s).params = s.params := rfl
@[simp] theorem setSr_freeIdx (r : StatusReg) : (setSr r s).freeIdx = s.freeIdx := rfl

@[simp] theorem setSeqCnt_sr (n : Nat) : (setSeqCnt n s).sr = s.sr := rfl
@[simp] theorem setSeqCnt_seqCnt (n : Nat) : (setSeqCnt n s).seqCnt = n := rfl
@[simp] theorem setSeqCnt_txnState (n : Nat) : (setSeqCnt n s).txnState = s.txnState := rfl
@[simp] theorem setSeqCnt_rxBuf (n : Nat) : (setSeqCnt n s).rxBuf = s.rxBuf := rfl
@[simp] theorem setSeqCnt_registered (n : Nat) : (setSeqCnt n s).registered = s.registered := rfl
@[simp] theorem setSeqCnt_pipeInit (n : Nat) : (setSeqCnt n s).pipeInit = s.pipeInit := rfl
@[simp] theorem setSeqCnt_fault (n : Nat) : (setSeqCnt n s).fault = s.fault := rfl
@[simp] theorem setSeqCnt_faultCode (n : Nat) : (setSeqCnt n s).faultCode = s.faultCode := rfl
@[simp] theorem setSeqCnt_refused (n : Nat) : (setSeqCnt n s).refused = s.refused := rfl
@[simp] theorem setSeqCnt_trace (n : Nat) : (setSeqCnt n s).trace = s.trace := rfl
@[simp] theorem setSeqCnt_input (n : Nat) : (setSeqCnt n s).input = s.input := rfl
@[simp] theorem setSeqCnt_params (n : Nat) : (setSeqCnt n s).params = s.params := rfl
@[simp] theorem setSeqCnt_freeIdx (n : Nat) : (setSeqCnt n s).freeIdx = s.freeIdx := rfl

@[simp] theorem setTxn_sr (x : TxnState) : (setTxn x s).sr = s.sr := rfl
@[simp] theorem setTxn_seqCnt (x : TxnState) : (setTxn x s).seqCnt = s.seqCnt := rfl
@[simp] theorem setTxn_txnState (x : TxnState) : (setTxn x s).txnState = x := rfl
@[simp] theorem setTxn_rxBuf (x : TxnState) : (setTxn x s).rxBuf = s.rxBuf := rfl
@[simp] theorem setTxn_registered (x : TxnState) : (setTxn x s).registered = s.registered := rfl
@[simp] theorem setTxn_pipeInit (x : TxnState) : (setTxn x s).pipeInit = s.pipeInit := rfl
@[simp] theorem setTxn_fault (x : TxnState) : (setTxn x s).fault = s.fault := rfl
@[simp] theorem setTxn_faultCode (x : TxnState) : (setTxn x s).faultCode = s.faultCode := rfl
@[simp] theorem setTxn_refused (x : TxnState) : (setTxn x s).refused = s.refused := rfl
@[simp] theorem setTxn_trace (x : TxnState) : (setTxn x s).trace = s.trace := rfl
@[simp] theorem setTxn_input (x : TxnState) : (setTxn x s).input = s.input := rfl
@[simp] theorem setTxn_params (x : TxnState) : (setTxn x s).params = s.params := rfl
@[simp] theorem setTxn_freeIdx (x : TxnState) : (setTxn x s).freeIdx = s.freeIdx := rfl

@[simp] theorem setRxBuf_sr (d : Payload) : (setRxBuf d s).sr = s.sr := rfl
@[simp] theorem setRxBuf_seqCnt (d : Payload) : (setRxBuf d s).seqCnt = s.seqCnt := rfl
@[simp] theorem setRxBuf_txnState (d : Payload) : (setRxBuf d s).txnState = s.txnState := rfl
@[simp] theorem setRxBuf_rxBuf (d : Payload) : (setRxBuf d s).rxBuf = d := rfl
@[simp] theorem setRxBuf_registered (d : Payload) : (setRxBuf d s).registered = s.registered := rfl
@[simp] theorem setRxBuf_pipeInit (d : Payload) : (setRxBuf d s).pipeInit = s.pipeInit := rfl
@[simp] theorem setRxBuf_fault (d : Payload) : (setRxBuf d s).fault = s.fault := rfl
@[simp] theorem setRxBuf_faultCode (d : Payload) : (setRxBuf d s).faultCode = s.faultCode := rfl
@[simp] theorem setRxBuf_refused (d : Payload) : (setRxBuf d s).refused = s.refused := rfl
@[simp] theorem setRxBuf_trace (d : Payload) : (setRxBuf d s).trace = s.trace := rfl
@[simp] theorem setRxBuf_input (d : Payload) : (setRxBuf d s).input = s.input := rfl
@[simp] theorem setRxBuf_params (d : Payload) : (setRxBuf d s).params = s.params := rfl
@[simp] theorem setRxBuf_freeIdx (d : Payload) : (setRxBuf d s).freeIdx = s.freeIdx := rfl

@[simp] theorem setRegistered_sr (b : Bool) : (setRegistered b s).sr = s.sr := rfl
@[simp] theorem setRegistered_seqCnt (b : Bool) : (setRegistered b s).seqCnt = s.seqCnt := rfl
@[simp] theorem setRegistered_txnState (b : Bool) : (setRegistered b s).txnState = s.txnState := rfl
@[simp] theorem setRegistered_rxBuf (b : Bool) : (setRegistered b s).rxBuf = s.rxBuf := rfl
@[simp] theorem setRegistered_registered (b : Bool) : (setRegistered b s).registered = b := rfl
@[simp] theorem setRegistered_pipeInit (b : Bool) : (setRegistered b s).pipeInit = s.pipeInit := rfl
@[simp] theorem setRegistered_fault (b : Bool) : (setRegistered b s).fault = s.fault := rfl
@[simp] theorem setRegistered_faultCode (b : Bool) :
    (setRegistered b s).faultCode = s.faultCode := rfl
@[simp] theorem setRegistered_refused (b : Bool) : (setRegistered b s).refused = s.refused := rfl
@[simp] theorem setRegistered_trace (b : Bool) : (setRegistered b s).trace = s.trace := rfl
@[simp] theorem setRegistered_input (b : Bool) : (setRegistered b s).input = s.input := rfl
@[simp] theorem setRegistered_params (b : Bool) : (setRegistered b s).params = s.params := rfl
@[simp] theorem setRegistered_freeIdx (b : Bool) : (setRegistered b s).freeIdx = s.freeIdx := rfl

@[simp] theorem setPipeInit_sr (b : Bool) : (setPipeInit b s).sr = s.sr := rfl
@[simp] theorem setPipeInit_seqCnt (b : Bool) : (setPipeInit b s).seqCnt = s.seqCnt := rfl
@[simp] theorem setPipeInit_txnState (b : Bool) : (setPipeInit b s).txnState = s.txnState := rfl
@[simp] theorem setPipeInit_rxBuf (b : Bool) : (setPipeInit b s).rxBuf = s.rxBuf := rfl
@[simp] theorem setPipeInit_registered (b : Bool) :
    (setPipeInit b s).registered = s.registered := rfl
@[simp] theorem setPipeInit_pipeInit (b : Bool) : (setPipeInit b s).pipeInit = b := rfl
@[simp] theorem setPipeInit_fault (b : Bool) : (setPipeInit b s).fault = s.fault := rfl
@[simp] theorem setPipeInit_faultCode (b : Bool) : (setPipeInit b s).faultCode = s.faultCode := rfl
@[simp] theorem setPipeInit_refused (b : Bool) : (setPipeInit b s).refused = s.refused := rfl
@[simp] theorem setPipeInit_trace (b : Bool) : (setPipeInit b s).trace = s.trace := rfl
@[simp] theorem setPipeInit_input (b : Bool) : (setPipeInit b s).input = s.input := rfl
@[simp] theorem setPipeInit_params (b : Bool) : (setPipeInit b s).params = s.params := rfl
@[simp] theorem setPipeInit_freeIdx (b : Bool) : (setPipeInit b s).freeIdx = s.freeIdx := rfl

@[simp] theorem setFaultMarks_sr (c : BitVec 3) : (setFaultMarks c s).sr = s.sr := rfl
@[simp] theorem setFaultMarks_seqCnt (c : BitVec 3) : (setFaultMarks c s).seqCnt = s.seqCnt := rfl
@[simp] theorem setFaultMarks_txnState (c : BitVec 3) :
    (setFaultMarks c s).txnState = s.txnState := rfl
@[simp] theorem setFaultMarks_rxBuf (c : BitVec 3) : (setFaultMarks c s).rxBuf = s.rxBuf := rfl
@[simp] theorem setFaultMarks_registered (c : BitVec 3) :
    (setFaultMarks c s).registered = s.registered := rfl
@[simp] theorem setFaultMarks_pipeInit (c : BitVec 3) :
    (setFaultMarks c s).pipeInit = s.pipeInit := rfl
@[simp] theorem setFaultMarks_fault (c : BitVec 3) : (setFaultMarks c s).fault = true := rfl
@[simp] theorem setFaultMarks_faultCode (c : BitVec 3) : (setFaultMarks c s).faultCode = c := rfl
@[simp] theorem setFaultMarks_refused (c : BitVec 3) :
    (setFaultMarks c s).refused = s.refused := rfl
@[simp] theorem setFaultMarks_trace (c : BitVec 3) : (setFaultMarks c s).trace = s.trace := rfl
@[simp] theorem setFaultMarks_input (c : BitVec 3) : (setFaultMarks c s).input = s.input := rfl
@[simp] theorem setFaultMarks_params (c : BitVec 3) : (setFaultMarks c s).params = s.params := rfl
@[simp] theorem setFaultMarks_freeIdx (c : BitVec 3) :
    (setFaultMarks c s).freeIdx = s.freeIdx := rfl

@[simp] theorem setRefused_sr : (setRefused s).sr = s.sr := rfl
@[simp] theorem setRefused_seqCnt : (setRefused s).seqCnt = s.seqCnt := rfl
@[simp] theorem setRefused_txnState : (setRefused s).txnState = s.txnState := rfl
@[simp] theorem setRefused_rxBuf : (setRefused s).rxBuf = s.rxBuf := rfl
@[simp] theorem setRefused_registered : (setRefused s).registered = s.registered := rfl
@[simp] theorem setRefused_pipeInit : (setRefused s).pipeInit = s.pipeInit := rfl
@[simp] theorem setRefused_fault : (setRefused s).fault = s.fault := rfl
@[simp] theorem setRefused_faultCode : (setRefused s).faultCode = s.faultCode := rfl
@[simp] theorem setRefused_refused : (setRefused s).refused = true := rfl
@[simp] theorem setRefused_trace : (setRefused s).trace = s.trace := rfl
@[simp] theorem setRefused_input : (setRefused s).input = s.input := rfl
@[simp] theorem setRefused_params : (setRefused s).params = s.params := rfl
@[simp] theorem setRefused_freeIdx : (setRefused s).freeIdx = s.freeIdx := rfl

@[simp] theorem emit_sr (e : OutEvent) : (emit e s).sr = s.sr := rfl
@[simp] theorem emit_seqCnt (e : OutEvent) : (emit e s).seqCnt = s.seqCnt := rfl
@[simp] theorem emit_txnState (e : OutEvent) : (emit e s).txnState = s.txnState := rfl
@[simp] theorem emit_rxBuf (e : OutEvent) : (emit e s).rxBuf = s.rxBuf := rfl
@[simp] theorem emit_registered (e : OutEvent) : (emit e s).registered = s.registered := rfl
@[simp] theorem emit_pipeInit (e : OutEvent) : (emit e s).pipeInit = s.pipeInit := rfl
@[simp] theorem emit_fault (e : OutEvent) : (emit e s).fault = s.fault := rfl
@[simp] theorem emit_faultCode (e : OutEvent) : (emit e s).faultCode = s.faultCode := rfl
@[simp] theorem emit_refused (e : OutEvent) : (emit e s).refused = s.refused := rfl
@[simp] theorem emit_trace (e : OutEvent) : (emit e s).trace = s.trace ++ [e] := rfl
@[simp] theorem emit_input (e : OutEvent) : (emit e s).input = s.input := rfl
@[simp] theorem emit_params (e : OutEvent) : (emit e s).params = s.params := rfl
@[simp] theorem emit_freeIdx (e : OutEvent) : (emit e s).freeIdx = s.freeIdx := rfl

@[simp] theorem setInput_sr (q : List (List Byte)) : (setInput q s).sr = s.sr := rfl
@[simp] theorem setInput_seqCnt (q : List (List Byte)) : (setInput q s).seqCnt = s.seqCnt := rfl
@[simp] theorem setInput_txnState (q : List (List Byte)) :
    (setInput q s).txnState = s.txnState := rfl
@[simp] theorem setInput_rxBuf (q : List (List Byte)) : (setInput q s).rxBuf = s.rxBuf := rfl
@[simp] theorem setInput_registered (q : List (List Byte)) :
    (setInput q s).registered = s.registered := rfl
@[simp] theorem setInput_pipeInit (q : List (List Byte)) :
    (setInput q s).pipeInit = s.pipeInit := rfl
@[simp] theorem setInput_fault (q : List (List Byte)) : (setInput q s).fault = s.fault := rfl
@[simp] theorem setInput_faultCode (q : List (List Byte)) :
    (setInput q s).faultCode = s.faultCode := rfl
@[simp] theorem setInput_refused (q : List (List Byte)) : (setInput q s).refused = s.refused := rfl
@[simp] theorem setInput_trace (q : List (List Byte)) : (setInput q s).trace = s.trace := rfl
@[simp] theorem setInput_input (q : List (List Byte)) : (setInput q s).input = q := rfl
@[simp] theorem setInput_params (q : List (List Byte)) : (setInput q s).params = s.params := rfl
@[simp] theorem setInput_freeIdx (q : List (List Byte)) : (setInput q s).freeIdx = s.freeIdx := rfl

@[simp] theorem armRxBuf_sr : (armRxBuf s).sr = s.sr := rfl
@[simp] theorem armRxBuf_seqCnt : (armRxBuf s).seqCnt = s.seqCnt := rfl
@[simp] theorem armRxBuf_txnState : (armRxBuf s).txnState = s.txnState := rfl
@[simp] theorem armRxBuf_rxBuf : (armRxBuf s).rxBuf = Config.armedRxBuf s.freeIdx := rfl
@[simp] theorem armRxBuf_registered : (armRxBuf s).registered = s.registered := rfl
@[simp] theorem armRxBuf_pipeInit : (armRxBuf s).pipeInit = s.pipeInit := rfl
@[simp] theorem armRxBuf_fault : (armRxBuf s).fault = s.fault := rfl
@[simp] theorem armRxBuf_faultCode : (armRxBuf s).faultCode = s.faultCode := rfl
@[simp] theorem armRxBuf_refused : (armRxBuf s).refused = s.refused := rfl
@[simp] theorem armRxBuf_trace : (armRxBuf s).trace = s.trace := rfl
@[simp] theorem armRxBuf_input : (armRxBuf s).input = s.input := rfl
@[simp] theorem armRxBuf_params : (armRxBuf s).params = s.params := rfl
@[simp] theorem armRxBuf_freeIdx : (armRxBuf s).freeIdx = s.freeIdx + 1 := rfl

@[simp] theorem raiseFault_sr (c : FaultCode) : (raiseFault c s).sr = s.sr := rfl
@[simp] theorem raiseFault_seqCnt (c : FaultCode) : (raiseFault c s).seqCnt = s.seqCnt := rfl
@[simp] theorem raiseFault_txnState (c : FaultCode) : (raiseFault c s).txnState = s.txnState := rfl
@[simp] theorem raiseFault_rxBuf (c : FaultCode) : (raiseFault c s).rxBuf = s.rxBuf := rfl
@[simp] theorem raiseFault_registered (c : FaultCode) :
    (raiseFault c s).registered = s.registered := rfl
@[simp] theorem raiseFault_pipeInit (c : FaultCode) : (raiseFault c s).pipeInit = s.pipeInit := rfl
@[simp] theorem raiseFault_fault (c : FaultCode) : (raiseFault c s).fault = true := rfl
@[simp] theorem raiseFault_faultCode (c : FaultCode) :
    (raiseFault c s).faultCode = faultBits c := rfl
@[simp] theorem raiseFault_refused (c : FaultCode) : (raiseFault c s).refused = s.refused := rfl
@[simp] theorem raiseFault_trace (c : FaultCode) :
    (raiseFault c s).trace = s.trace ++ [.fault (faultBits c)] := rfl
@[simp] theorem raiseFault_input (c : FaultCode) : (raiseFault c s).input = s.input := rfl
@[simp] theorem raiseFault_params (c : FaultCode) : (raiseFault c s).params = s.params := rfl
@[simp] theorem raiseFault_freeIdx (c : FaultCode) : (raiseFault c s).freeIdx = s.freeIdx := rfl

@[simp] theorem resetBlock_sr : (resetBlock s).sr = ⟨false, false⟩ := rfl
@[simp] theorem resetBlock_seqCnt : (resetBlock s).seqCnt = 0 := rfl
@[simp] theorem resetBlock_txnState : (resetBlock s).txnState = .awaitingSetup := rfl
@[simp] theorem resetBlock_rxBuf : (resetBlock s).rxBuf = Config.resetRxBuf := rfl
@[simp] theorem resetBlock_registered : (resetBlock s).registered = false := rfl
@[simp] theorem resetBlock_pipeInit : (resetBlock s).pipeInit = false := rfl
@[simp] theorem resetBlock_fault : (resetBlock s).fault = false := rfl
@[simp] theorem resetBlock_faultCode : (resetBlock s).faultCode = 0 := rfl
@[simp] theorem resetBlock_refused : (resetBlock s).refused = false := rfl
@[simp] theorem resetBlock_trace : (resetBlock s).trace = [] := rfl
@[simp] theorem resetBlock_input : (resetBlock s).input = s.input := rfl
@[simp] theorem resetBlock_params : (resetBlock s).params = s.params := rfl
@[simp] theorem resetBlock_freeIdx : (resetBlock s).freeIdx = s.freeIdx := rfl

end Sys2Proof.Machine
end

