-- ==== Sys2Proof/Laws/Ops.lean ====
section
/-! SUPPORT. What the shared operations can do: the dispatch, each event's rule, and a step. Later
proofs cite these and do not unfold the operations. -/

namespace Sys2Proof.Machine

/-! ## The dispatch -/

theorem runEvent_of_live {rule : State → Except FaultCode State} {s : State} (h : Live s) :
    runEvent rule s = .next (commit s (rule s)) := by
  obtain ⟨hf, hr, ht⟩ := h
  simp [runEvent, quiescent, hf, hr, ht]

theorem runEvent_of_quiescent {rule : State → Except FaultCode State} {s : State}
    (h : quiescent s = true) : runEvent rule s = .next s := by
  simp [runEvent, h]

theorem runEvent_of_illegal {rule : State → Except FaultCode State} {s : State}
    (hq : quiescent s = false) (h : s.txnState = .illegal) :
    runEvent rule s = .next (raiseFault .illegalState s) := by
  simp [runEvent, hq, h]

theorem quiescent_eq_false {s : State} : quiescent s = false ↔ s.fault = false ∧ s.refused = false := by
  simp [quiescent]

/-- Everything the dispatch can answer: the state as it was, a fault raised on it, or the rule's
result, from a live state. -/
theorem runEvent_cases {rule : State → Except FaultCode State} {s t : State}
    (h : runEvent rule s = .next t) :
    (quiescent s = true ∧ t = s) ∨
    (quiescent s = false ∧ s.txnState = .illegal ∧ t = raiseFault .illegalState s) ∨
    (Live s ∧ ∃ c, rule s = .error c ∧ t = raiseFault c s) ∨
    (Live s ∧ rule s = .ok t) := by
  unfold runEvent at h
  split at h
  · cases h; exact .inl ⟨‹_›, rfl⟩
  · rename_i hq
    have hq' : quiescent s = false := by simpa using hq
    split at h
    · cases h; exact .inr (.inl ⟨hq', ‹_›, rfl⟩)
    · rename_i hi
      have hl : Live s := ⟨(quiescent_eq_false.1 hq').1, (quiescent_eq_false.1 hq').2, hi⟩
      cases hr : rule s with
      | error c => rw [hr] at h; cases h; exact .inr (.inr (.inl ⟨hl, c, rfl, rfl⟩))
      | ok u => rw [hr] at h; cases h; exact .inr (.inr (.inr ⟨hl, rfl⟩))

/-- An event that passes the dispatch always answers a next state. -/
theorem runEvent_next (rule : State → Except FaultCode State) (s : State) :
    ∃ t, runEvent rule s = .next t := by
  unfold runEvent
  split
  · exact ⟨_, rfl⟩
  · split <;> exact ⟨_, rfl⟩

/-! ## The rules of the events -/

/-- The rule of an event other than RESET, which has none. -/
def ruleOf : Instr → Option (State → Except FaultCode State)
  | .reset => none
  | .config _ => some configRule
  | .setupSig dir => some (setupRule (sigPacket dir))
  | .setupOther p => some (setupRule p)
  | .data len d => some (dataRule len d)
  | .tpSetOnline v => some (fun s => .ok (setSr (setOnline v s.sr) s))
  | .tpSetBatteryGood g => some (fun s => .ok (setSr (setBatteryGood g s.sr) s))
  | .tpSerialize => some (fun s => .ok (emit (.tpFrame (serialize s.sr)) s))

theorem exec_reset (s : State) : exec .reset s = .next (resetBlock s) := rfl

theorem exec_of_ruleOf {i : Instr} {rule : State → Except FaultCode State}
    (h : ruleOf i = some rule) (s : State) : exec i s = runEvent rule s := by
  cases i <;> simp only [ruleOf, reduceCtorEq, Option.some.injEq] at h <;> subst h <;> rfl

theorem ruleOf_of_ne_reset {i : Instr} (h : i ≠ .reset) : ∃ rule, ruleOf i = some rule := by
  cases i <;> first | exact absurd rfl h | exact ⟨_, rfl⟩

theorem setupEvent_ne_reset (p : SetupPacket) : setupEvent p ≠ .reset := by
  unfold setupEvent; split <;> simp

/-- Both SETUP rows run the one SETUP rule on their packet. -/
theorem exec_setupEvent (p : SetupPacket) (s : State) :
    exec (setupEvent p) s = runEvent (setupRule p) s := by
  unfold setupEvent
  split
  · rename_i h; conv_rhs => rw [eq_sigPacket_of_fits h]
    rfl
  · rfl

/-- CONFIG's rule: the first one configures, a later one does nothing. -/
theorem configRule_cases {s t : State} (h : configRule s = .ok t) :
    (s.registered = true ∧ t = s) ∨ (s.registered = false ∧ t = firstConfig s) := by
  unfold configRule at h
  split at h
  · cases h; exact .inl ⟨‹_›, rfl⟩
  · rename_i hr; cases h; exact .inr ⟨eq_false_of_ne_true hr, rfl⟩

/-- The only fault of SETUP's rule. -/
theorem setupRule_error {p : SetupPacket} {s : State} {c : FaultCode}
    (h : setupRule p s = .error c) :
    c = .setupInPending ∧ s.registered = true ∧ s.txnState = .dataPending ∧
      s.params.setupInPending = .fault := by
  unfold setupRule at h
  split at h
  · cases h
  · rename_i hr
    split at h
    · rename_i hp; cases h; exact ⟨rfl, by simpa using hr, hp⟩
    · split at h <;> cases h

/-- What SETUP's rule can do without a fault: decline before registration, claim, or decline. -/
theorem setupRule_cases {p : SetupPacket} {s t : State} (h : setupRule p s = .ok t) :
    (s.registered = false ∧ t = emit .respDeclined s) ∨
    (s.registered = true ∧ SetupAllowed s ∧ sigMatch s.params.matchDir p = true ∧
      t = claimSetup s) ∨
    (s.registered = true ∧ SetupAllowed s ∧ sigMatch s.params.matchDir p = false ∧
      t = declineSetup s) := by
  unfold setupRule at h
  split at h
  · cases h; exact .inl ⟨‹_›, rfl⟩
  · rename_i hr
    have hr' : s.registered = true := by simpa using hr
    split at h
    · cases h
    · rename_i hp
      have ha : SetupAllowed s := by
        intro hd
        cases hs : s.params.setupInPending with
        | rematch => rfl
        | fault => exact absurd ⟨hd, hs⟩ hp
      split at h
      · cases h; exact .inr (.inl ⟨hr', ha, ‹_›, rfl⟩)
      · rename_i hm; cases h; exact .inr (.inr ⟨hr', ha, eq_false_of_ne_true hm, rfl⟩)

/-- SETUP's rule in a registered block that allows it. -/
theorem setupRule_of_allowed {p : SetupPacket} {s : State} (hr : s.registered = true)
    (ha : SetupAllowed s) :
    setupRule p s =
      .ok (if sigMatch s.params.matchDir p = true then claimSetup s else declineSetup s) := by
  have hp : ¬ (s.txnState = .dataPending ∧ s.params.setupInPending = .fault) := by
    rintro ⟨hd, hs⟩; rw [ha hd] at hs; cases hs
  unfold setupRule
  rw [if_neg (by simp [hr]), if_neg hp]
  split <;> rfl

/-- The increment: one more below the top, the overflow at it. -/
theorem inc_below_top {p : Params} {c : Nat} (h : c ≠ 2 ^ cntWidth p - 1) :
    inc p c = .ok (c + 1) := by
  simp [inc, h]

theorem inc_top_wrap {p : Params} (h : p.cntOverflow = .wrap) :
    inc p (2 ^ cntWidth p - 1) = .ok 0 := by
  simp [inc, h]

theorem inc_top_fault {p : Params} (h : p.cntOverflow = .fault) :
    inc p (2 ^ cntWidth p - 1) = .error .cntOverflow := by
  simp [inc, h]

theorem inc_cases {p : Params} {c n : Nat} (h : inc p c = .ok n) :
    (c = 2 ^ cntWidth p - 1 ∧ p.cntOverflow = .wrap ∧ n = 0) ∨
    (c ≠ 2 ^ cntWidth p - 1 ∧ n = c + 1) := by
  unfold inc at h
  split at h
  · rename_i hc
    cases ho : p.cntOverflow with
    | wrap => rw [ho] at h; cases h; exact .inl ⟨hc, rfl, rfl⟩
    | fault => rw [ho] at h; cases h
  · rename_i hc; cases h; exact .inr ⟨hc, rfl⟩

theorem inc_error {p : Params} {c : Nat} {f : FaultCode} (h : inc p c = .error f) :
    f = .cntOverflow ∧ c = 2 ^ cntWidth p - 1 ∧ p.cntOverflow = .fault := by
  unfold inc at h
  split at h
  · rename_i hc
    cases ho : p.cntOverflow with
    | wrap => rw [ho] at h; cases h
    | fault => rw [ho] at h; cases h; exact ⟨rfl, hc, rfl⟩
  · cases h

/-- The counter stays within its width, and counts modulo it. -/
theorem inc_mod {p : Params} {c n : Nat} (hc : c < 2 ^ cntWidth p) (h : inc p c = .ok n) :
    n = (c + 1) % 2 ^ cntWidth p := by
  rcases inc_cases h with ⟨rfl, -, rfl⟩ | ⟨hne, rfl⟩
  · rw [Nat.sub_add_cancel (by omega), Nat.mod_self]
  · rw [Nat.mod_eq_of_lt (by omega)]

theorem cntWidth_ge (p : Params) : 64 ≤ 2 ^ cntWidth p := by
  have : (2 : Nat) ^ 6 ≤ 2 ^ cntWidth p := Nat.pow_le_pow_right (by omega) (by simp [cntWidth])
  omega

/-- The state a completed data stage leaves, as one record. -/
theorem completed_state (n : Nat) (d : Payload) (s : State) :
    submitReply (acknowledge (updateData n d s)) =
      { s with
        rxBuf := d, seqCnt := n, sr := sched s.seqCnt s.sr, txnState := .complete,
        trace := s.trace ++
          [.ledToggle, .statusAck, .txInt 1 6 (serialize (sched s.seqCnt s.sr))] } := by
  simp [submitReply, acknowledge, updateData, emit, setTxn, setSr, setSeqCnt, setRxBuf, intEp,
    frameLen]

theorem completeData_cases {d : Payload} {s t : State} (h : completeData d s = .ok t) :
    ∃ n, inc s.params s.seqCnt = .ok n ∧ s.pipeInit = true ∧
      t = submitReply (acknowledge (updateData n d s)) := by
  unfold completeData at h
  cases hi : inc s.params s.seqCnt with
  | error c => rw [hi] at h; cases h
  | ok n =>
    rw [hi] at h
    by_cases hp : s.pipeInit = false
    · simp [hp] at h
    · simp only [hp] at h
      cases h
      exact ⟨n, rfl, by simpa using hp, rfl⟩

theorem completeData_ok {d : Payload} {s : State} {n : Nat} (hi : inc s.params s.seqCnt = .ok n)
    (hp : s.pipeInit = true) :
    completeData d s = .ok (submitReply (acknowledge (updateData n d s))) := by
  simp [completeData, hi, hp]

theorem completeData_error {d : Payload} {s : State} {c : FaultCode}
    (h : completeData d s = .error c) :
    (c = .cntOverflow ∧ inc s.params s.seqCnt = .error .cntOverflow) ∨
    (c = .txPipeUninit ∧ s.pipeInit = false) := by
  unfold completeData at h
  cases hi : inc s.params s.seqCnt with
  | error e => rw [hi] at h; cases h; obtain ⟨rfl, -⟩ := inc_error hi; exact .inl ⟨rfl, rfl⟩
  | ok n =>
    rw [hi] at h
    by_cases hp : s.pipeInit = false
    · simp only [hp, if_true] at h; cases h; exact .inr ⟨rfl, hp⟩
    · simp [hp] at h

/-- What DATA's rule can do without a fault: stall the status stage, or complete the transaction. -/
theorem dataRule_cases {len : Byte} {d : Payload} {s t : State} (h : dataRule len d s = .ok t) :
    s.txnState = .dataPending ∧
    ((len ≠ 4 ∧ s.params.lenCheck = .on ∧ t = stallData s) ∨
     ((len = 4 ∨ (s.params.lenCheck = .off ∧ len.toNat < 4)) ∧ completeData d s = .ok t)) := by
  unfold dataRule at h
  split at h
  · cases h
  · rename_i ht
    refine ⟨by simpa using ht, ?_⟩
    split at h
    · rename_i hl; exact .inr ⟨.inl hl, h⟩
    · rename_i hl
      cases hc : s.params.lenCheck with
      | on => rw [hc] at h; cases h; exact .inl ⟨hl, rfl, rfl⟩
      | off =>
        rw [hc] at h
        simp only at h
        split at h
        · cases h
        · rename_i hlt
          refine .inr ⟨.inr ⟨rfl, ?_⟩, h⟩
          have h4 : len.toNat ≠ 4 := fun e => hl (BitVec.eq_of_toNat_eq e)
          simp [rxLen] at hlt
          omega

/-- Why DATA's rule faults. -/
theorem dataRule_error {len : Byte} {d : Payload} {s : State} {c : FaultCode}
    (h : dataRule len d s = .error c) :
    (c = .unsolicitedData ∧ s.txnState ≠ .dataPending) ∨
    (s.txnState = .dataPending ∧
      ((c = .dataOverrun ∧ s.params.lenCheck = .off ∧ 4 < len.toNat) ∨
       completeData d s = .error c)) := by
  unfold dataRule at h
  split at h
  · cases h; exact .inl ⟨rfl, ‹_›⟩
  · rename_i ht
    refine .inr ⟨by simpa using ht, ?_⟩
    split at h
    · exact .inr h
    · cases hc : s.params.lenCheck with
      | on => rw [hc] at h; cases h
      | off =>
        rw [hc] at h
        simp only at h
        split at h
        · rename_i hl; cases h; exact .inl ⟨rfl, rfl, hl⟩
        · exact .inr h

/-! ## A step -/

theorem fetch_idle {s : State} (h : s.input = []) : fetch s = .idle := by
  simp [fetch, h]

theorem fetch_event {s : State} {bytes rest : List Byte} {q : List (List Byte)} {i : Instr}
    (h : s.input = bytes :: q) (hd : decode bytes = .event i rest) :
    fetch s = .event i (setInput (requeue rest q) s) := by
  simp [fetch, h, hd]

theorem fetch_refused {s : State} {bytes rest : List Byte} {q : List (List Byte)}
    {r : RefuseReason} (h : s.input = bytes :: q) (hd : decode bytes = .refused r rest) :
    fetch s = .refused r (setInput (requeue rest q) s) := by
  simp [fetch, h, hd]

theorem runEnds_idle {s : State} (h : s.input = []) : runEnds s = true := by
  simp [runEnds, fetch_idle h]

theorem runEnds_event {s : State} {bytes rest : List Byte} {q : List (List Byte)} {i : Instr}
    (h : s.input = bytes :: q) (hd : decode bytes = .event i rest) :
    runEnds s = (i == .reset) := by
  simp [runEnds, fetch_event h hd]

theorem runEnds_refused {s : State} {bytes rest : List Byte} {q : List (List Byte)}
    {r : RefuseReason} (h : s.input = bytes :: q) (hd : decode bytes = .refused r rest) :
    runEnds s = false := by
  simp [runEnds, fetch_refused h hd]

/-- Everything a step can be: a wait, an event run on the state less its bytes, or a refusal. -/
theorem step_cases {s t : State} (h : step s = .next t) :
    (s.input = [] ∧ t = s) ∨
    (∃ i q, exec i (setInput q s) = .next t) ∨
    (∃ q, t = setRefused (setInput q s)) := by
  unfold step at h
  cases hi : s.input with
  | nil => rw [fetch_idle hi] at h; cases h; exact .inl ⟨rfl, rfl⟩
  | cons bytes q =>
    cases hd : decode bytes with
    | event i rest => rw [fetch_event hi hd] at h; exact .inr (.inl ⟨i, _, h⟩)
    | refused r rest => rw [fetch_refused hi hd] at h; cases h; exact .inr (.inr ⟨_, rfl⟩)

/-- Everything exec can answer for an event: RESET's state, or one of the dispatch's four. -/
theorem exec_cases {i : Instr} {s t : State} (h : exec i s = .next t) :
    (i = .reset ∧ t = resetBlock s) ∨
    (i ≠ .reset ∧
      ((quiescent s = true ∧ t = s) ∨
       (quiescent s = false ∧ s.txnState = .illegal ∧ t = raiseFault .illegalState s) ∨
       (Live s ∧ ∃ rule c, ruleOf i = some rule ∧ rule s = .error c ∧ t = raiseFault c s) ∨
       (Live s ∧ ∃ rule, ruleOf i = some rule ∧ rule s = .ok t))) := by
  by_cases hr : i = .reset
  · subst hr; rw [exec_reset] at h; cases h; exact .inl ⟨rfl, rfl⟩
  · obtain ⟨rule, hrule⟩ := ruleOf_of_ne_reset hr
    rw [exec_of_ruleOf hrule] at h
    refine .inr ⟨hr, ?_⟩
    rcases runEvent_cases h with h | h | ⟨hl, c, hc, ht⟩ | ⟨hl, hok⟩
    · exact .inl h
    · exact .inr (.inl h)
    · exact .inr (.inr (.inl ⟨hl, rule, c, hrule, hc, ht⟩))
    · exact .inr (.inr (.inr ⟨hl, rule, hrule, hok⟩))

/-! ## Effects, once for all -/

/-- Where a fault can come from, for the two codes that no run raises. -/
theorem rule_error_origin {i : Instr} {rule : State → Except FaultCode State} {s : State}
    {c : FaultCode} (hr : ruleOf i = some rule) (hc : rule s = .error c) :
    c ≠ .illegalState ∧ (c = .txPipeUninit → s.txnState = .dataPending ∧ s.pipeInit = false) := by
  have setup : ∀ p, setupRule p s = .error c → c = .setupInPending :=
    fun p h => (setupRule_error h).1
  cases i <;> simp only [ruleOf, reduceCtorEq, Option.some.injEq] at hr <;> subst hr
  case config => cases hc
  case setupSig => simp [setup _ hc]
  case setupOther => simp [setup _ hc]
  case data =>
    rcases dataRule_error hc with ⟨rfl, -⟩ | ⟨hd, ⟨rfl, -⟩ | hc⟩
    · simp
    · simp
    · rcases completeData_error hc with ⟨rfl, -⟩ | ⟨rfl, hp⟩
      · simp
      · simp [hd, hp]
  all_goals cases hc

/-- A relation between the states before and after an event holds of every event if it holds of each
effect an event can have: RESET, nothing, a fault, and the effects of the rules. -/
theorem exec_effects {P : State → Prop} {s : State}
    (reset : P (resetBlock s)) (same : P s)
    (fault : ∀ c, s.fault = false → s.refused = false →
      (c = .illegalState ↔ s.txnState = .illegal) →
      (c = .txPipeUninit → s.txnState = .dataPending ∧ s.pipeInit = false) → P (raiseFault c s))
    (config : Live s → s.registered = false → P (firstConfig s))
    (early : Live s → s.registered = false → P (emit .respDeclined s))
    (decline : Live s → s.registered = true → SetupAllowed s → P (declineSetup s))
    (claim : Live s → s.registered = true → SetupAllowed s → P (claimSetup s))
    (stall : Live s → s.txnState = .dataPending → P (stallData s))
    (complete : ∀ n d, Live s → s.txnState = .dataPending → s.pipeInit = true →
      inc s.params s.seqCnt = .ok n → P (submitReply (acknowledge (updateData n d s))))
    (online : ∀ v, Live s → P (setSr (setOnline v s.sr) s))
    (battGood : ∀ g, Live s → P (setSr (setBatteryGood g s.sr) s))
    (frame : Live s → P (emit (.tpFrame (serialize s.sr)) s))
    {i : Instr} {t : State} (h : exec i s = .next t) : P t := by
  have setup : Live s → ∀ p, setupRule p s = .ok t → P t := by
    intro hl p h
    rcases setupRule_cases h with ⟨hr, rfl⟩ | ⟨hr, ha, -, rfl⟩ | ⟨hr, ha, -, rfl⟩
    · exact early hl hr
    · exact claim hl hr ha
    · exact decline hl hr ha
  rcases exec_cases h with
    ⟨-, rfl⟩ | ⟨-, ⟨-, rfl⟩ | ⟨hq, hi, rfl⟩ | ⟨hl, rule, c, hr, hc, rfl⟩ | ⟨hl, rule, hr, hok⟩⟩
  · exact reset
  · exact same
  · obtain ⟨hf, hm⟩ := quiescent_eq_false.1 hq
    exact fault _ hf hm (by simp [hi]) (by simp)
  · obtain ⟨hi, hp⟩ := rule_error_origin hr hc
    exact fault c hl.1 hl.2.1 ⟨fun e => absurd e hi, fun e => absurd e hl.2.2⟩ hp
  · cases i <;> simp only [ruleOf, reduceCtorEq, Option.some.injEq] at hr <;> subst hr
    case config =>
      rcases configRule_cases hok with ⟨-, rfl⟩ | ⟨hr, rfl⟩
      · exact same
      · exact config hl hr
    case setupSig => exact setup hl _ hok
    case setupOther => exact setup hl _ hok
    case data =>
      obtain ⟨hp, ⟨-, -, rfl⟩ | ⟨-, hc⟩⟩ := dataRule_cases hok
      · exact stall hl hp
      · obtain ⟨n, hn, hpi, rfl⟩ := completeData_cases hc
        exact complete n _ hl hp hpi hn
    case tpSetOnline => cases hok; exact online _ hl
    case tpSetBatteryGood => cases hok; exact battGood _ hl
    case tpSerialize => cases hok; exact frame hl

/-- What every event keeps, and what reads neither the deliveries nor the refusal mark, every step
keeps. -/
theorem step_keeps {P : State → Prop} (input : ∀ s q, P s → P (setInput q s))
    (refused : ∀ s, P s → P (setRefused s)) (event : ∀ i s t, P s → exec i s = .next t → P t)
    {s t : State} (hs : P s) (h : step s = .next t) : P t := by
  rcases step_cases h with ⟨-, rfl⟩ | ⟨i, q, h⟩ | ⟨q, rfl⟩
  · exact hs
  · exact event _ _ _ (input _ _ hs) h
  · exact refused _ (input _ _ hs)

end Sys2Proof.Machine
end

