-- ==== Sys2Proof/Laws/Compare.lean ====
section
/-! SUPPORT. Two runs compared: a relation between two states that a fault keeps and that the effects
of an event's rule keep is kept by the event. One lemma per shared operation. -/

namespace Sys2Proof.Machine

/-- Two rules give the same fault, or results that are related. -/
def Agree (R : State → State → Prop) (x y : Except FaultCode State) : Prop :=
  (∃ c, x = .error c ∧ y = .error c) ∨ ∃ t u, x = .ok t ∧ y = .ok u ∧ R t u

theorem agree_ok {R : State → State → Prop} {t u : State} (h : R t u) :
    Agree R (.ok t) (.ok u) := .inr ⟨t, u, rfl, rfl, h⟩

theorem agree_error {R : State → State → Prop} (c : FaultCode) :
    Agree R (.error c) (.error c) := .inl ⟨c, rfl, rfl⟩

theorem agree_ite {R : State → State → Prop} {p : Prop} [Decidable p]
    {x x' y y' : Except FaultCode State} (h : p → Agree R x y) (h' : ¬ p → Agree R x' y') :
    Agree R (if p then x else x') (if p then y else y') := by
  by_cases hp : p
  · rw [if_pos hp, if_pos hp]; exact h hp
  · rw [if_neg hp, if_neg hp]; exact h' hp

/-- The dispatch (R120) on two related states whose marks and transaction states agree. -/
theorem runEvent_agree {R : State → State → Prop} {a b : State}
    {rule rule' : State → Except FaultCode State} (hf : a.fault = b.fault)
    (hm : a.refused = b.refused) (ht : a.txnState = b.txnState) (same : R a b)
    (fault : ∀ c, R (raiseFault c a) (raiseFault c b)) (h : Agree R (rule a) (rule' b)) :
    ∃ t u, runEvent rule a = .next t ∧ runEvent rule' b = .next u ∧ R t u := by
  by_cases hq : quiescent b = true
  · have hq' : quiescent a = true := by simpa [quiescent, hf, hm] using hq
    exact ⟨_, _, runEvent_of_quiescent hq', runEvent_of_quiescent hq, same⟩
  · have hqb := eq_false_of_ne_true hq
    have hqa : quiescent a = false := by simpa [quiescent, hf, hm] using hqb
    by_cases hi : b.txnState = .illegal
    · exact ⟨_, _, runEvent_of_illegal hqa (ht.trans hi), runEvent_of_illegal hqb hi, fault _⟩
    · have hb : Live b :=
        ⟨(quiescent_eq_false.1 hqb).1, (quiescent_eq_false.1 hqb).2, hi⟩
      have ha : Live a := ⟨hf.trans hb.1, hm.trans hb.2.1, fun e => hi (ht.symm.trans e)⟩
      rcases h with ⟨c, ea, eb⟩ | ⟨t, u, ea, eb, hr⟩
      · exact ⟨_, _, runEvent_of_live ha, runEvent_of_live hb, by rw [ea, eb]; exact fault c⟩
      · exact ⟨_, _, runEvent_of_live ha, runEvent_of_live hb, by rw [ea, eb]; exact hr⟩

/-- SETUP's rule on two states that agree on what it reads. -/
theorem setupRule_agree {R : State → State → Prop} {a b : State} (p : SetupPacket)
    (hr : a.registered = b.registered) (hp : a.params = b.params) (ht : a.txnState = b.txnState)
    (early : R (emit .respDeclined a) (emit .respDeclined b))
    (claim : R (claimSetup a) (claimSetup b)) (decline : R (declineSetup a) (declineSetup b)) :
    Agree R (setupRule p a) (setupRule p b) := by
  simp only [setupRule, hr, hp, ht]
  exact agree_ite (fun _ => agree_ok early) fun _ => agree_ite (fun _ => agree_error _) fun _ =>
    agree_ite (fun _ => agree_ok claim) fun _ => agree_ok decline

/-- The completion of a transaction on two states that agree on what it reads of the handler. -/
theorem completeData_agree {R : State → State → Prop} {a b : State} (d d' : Payload)
    (hi : a.pipeInit = b.pipeInit) (hp : a.params = b.params) (hc : a.seqCnt = b.seqCnt)
    (complete : ∀ n, R (submitReply (acknowledge (updateData n d a)))
      (submitReply (acknowledge (updateData n d' b)))) :
    Agree R (completeData d a) (completeData d' b) := by
  simp only [completeData, hi, hp, hc]
  cases inc b.params b.seqCnt with
  | error c => exact agree_error c
  | ok n => exact agree_ite (fun _ => agree_error _) fun _ => agree_ok (complete n)

/-- DATA's rule on two states that agree on what it reads of the handler. -/
theorem dataRule_agree {R : State → State → Prop} {a b : State} (len : Byte) (d d' : Payload)
    (ht : a.txnState = b.txnState) (hi : a.pipeInit = b.pipeInit) (hp : a.params = b.params)
    (hc : a.seqCnt = b.seqCnt) (stall : R (stallData a) (stallData b))
    (complete : ∀ n, R (submitReply (acknowledge (updateData n d a)))
      (submitReply (acknowledge (updateData n d' b)))) :
    Agree R (dataRule len d a) (dataRule len d' b) := by
  have h := completeData_agree d d' hi hp hc complete
  simp only [dataRule, ht, hp]
  refine agree_ite (fun _ => agree_error _) fun _ => agree_ite (fun _ => h) fun _ => ?_
  cases b.params.lenCheck with
  | on => exact agree_ok stall
  | off => exact agree_ite (fun _ => agree_error _) fun _ => h

end Sys2Proof.Machine
end

