-- ==== Sys2Proof/Laws/PerInstr.lean ====
section
/-! SUPPORT. Statements about every instruction as syntax, one lemma per constructor. -/

/-- The encoding of an instruction begins with its tag and has the length that the tag alone fixes
(30_encoding.md R77). -/
def Sys2Proof.Laws.EncodedLength.Statement (i : Sys2Proof.Instr) : Prop :=
  ∃ t ops, Sys2Proof.encode i = t :: ops ∧
    Sys2Proof.eventLength t = some (Sys2Proof.encode i).length

namespace Sys2Proof.Laws.EncodedLength

theorem reset : Statement .reset := ⟨_, _, rfl, rfl⟩
theorem config (cfg : Byte) : Statement (.config cfg) := ⟨_, _, rfl, rfl⟩
theorem setupSig (dir : BitVec 1) : Statement (.setupSig dir) := ⟨_, _, rfl, rfl⟩
theorem setupOther (p : SetupPacket) : Statement (.setupOther p) := ⟨_, _, rfl, rfl⟩
theorem data (len : Byte) (d : Payload) : Statement (.data len d) := ⟨_, _, rfl, rfl⟩
theorem tpSetOnline (v : Bool) : Statement (.tpSetOnline v) := ⟨_, _, rfl, rfl⟩
theorem tpSetBatteryGood (g : Bool) : Statement (.tpSetBatteryGood g) := ⟨_, _, rfl, rfl⟩
theorem tpSerialize : Statement .tpSerialize := ⟨_, _, rfl, rfl⟩

end Sys2Proof.Laws.EncodedLength
end

