-- ==== Sys2Proof/Tests/Slice0.lean ====
section
/-! SUPPORT. Tests of the model against the spec's own vectors (95_test_vectors.md, whose ids the
names and comments give), and for each obligation with hypotheses a witness that meets them. -/

namespace Sys2Proof.Tests

open Sys2Proof Sys2Proof.Machine

/-! ## Small states -/

/-- "Registered": the state after RESET and CONFIG 01 (95_test_vectors.md), its trace left out. -/
def registered : State := { State.reset with registered := true, pipeInit := true }

/-- A registered block that awaits a data stage, with the given flags and counter. -/
def pending (r : StatusReg) (c : Nat) : State :=
  { registered with sr := r, seqCnt := c, txnState := .dataPending }

/-- The same state with the parameters changed. -/
def withParams (f : Params → Params) (s : State) : State := { s with params := f s.params }

def rematch : Params → Params := fun p => { p with setupInPending := .rematch }
def dirChecked : Params → Params := fun p => { p with matchDir := .hostToDevice }
def lenOff : Params → Params := fun p => { p with lenCheck := .off }
def sixBits (o : CntOverflow) : Params → Params := fun p => { p with cntExtra := 0, cntOverflow := o }

/-- The outputs an event appends, the flags, the counter and the transaction state after it. -/
def seen (i : Instr) (s : State) : Option (List OutEvent × StatusReg × Nat × TxnState) :=
  match exec i s with
  | .next t => some (t.trace.drop s.trace.length, t.sr, t.seqCnt, t.txnState)
  | _ => none

/-- The marks after an event. -/
def marks (i : Instr) (s : State) : Option (Bool × BitVec 3 × Bool) :=
  match exec i s with
  | .next t => some (t.fault, t.faultCode, t.refused)
  | _ => none

def noData : Payload := ⟨0, 0, 0, 0⟩
def frame (b3 : Byte) : Frame := ⟨0, 0, 0, b3, 0, 0⟩
def reply (b3 : Byte) : List OutEvent := [.ledToggle, .statusAck, .txInt 1 6 (frame b3)]

/-- V-S15's packet, a standard GET_DESCRIPTOR, `80 06 00 01 00 00 12 00`. -/
def getDescriptor : SetupPacket := decodePacket 0x80 0x06 0x00 0x01 0x00 0x00 0x12 0x00

/-! ## Well-formedness and decoding -/

-- SETUP_SIG's packet is not SETUP_OTHER's (opcode_table.json)
theorem test_illFormed_setupOther : (Instr.setupOther (sigPacket 0)).wellFormed = false := by decide
theorem test_wellFormed_setupOther : (Instr.setupOther getDescriptor).wellFormed = true := by decide

-- V-E1 to V-E6 and R77, bit by bit
theorem test_decode_reset : decode [0x00] = .event .reset [] := by decide
theorem test_decode_config : decode [0x01, 0x07] = .event (.config 7) [] := by decide
theorem test_decode_setupSig :
    decode [0x02, 0x21, 0x09, 0x00, 0x02, 0x00, 0x00, 0x04, 0x00] = .event (.setupSig 0) [] := by
  decide
theorem test_decode_setupSig_in :
    decode [0x02, 0xA1, 0x09, 0x00, 0x02, 0x00, 0x00, 0x04, 0x00] = .event (.setupSig 1) [] := by
  decide
-- V-S13: the value byte-swapped, 0x0002; V-S6: length 0x0104; type 3 and recipient 31 are no errors
theorem test_decode_setupOther_value :
    decode [0x02, 0x21, 0x09, 0x02, 0x00, 0x00, 0x00, 0x04, 0x00] =
      .event (.setupOther ⟨0, 1, 1, 9, 0x0002, 0, 4⟩) [] := by decide
theorem test_decode_setupOther_length :
    decode [0x02, 0x21, 0x09, 0x00, 0x02, 0x00, 0x00, 0x04, 0x01] =
      .event (.setupOther ⟨0, 1, 1, 9, 0x0200, 0, 0x0104⟩) [] := by decide
theorem test_decode_setupOther_reserved :
    decode [0x02, 0x7F, 0x09, 0x00, 0x02, 0x34, 0x12, 0x04, 0x00] =
      .event (.setupOther ⟨0, 3, 31, 9, 0x0200, 0x1234, 4⟩) [] := by decide
theorem test_decode_data :
    decode [0x03, 0x04, 0xDE, 0xAD, 0xBE, 0xEF] = .event (.data 4 ⟨0xDE, 0xAD, 0xBE, 0xEF⟩) [] := by
  decide
theorem test_decode_tpSetOnline : decode [0x10, 0x01] = .event (.tpSetOnline true) [] := by decide
theorem test_decode_tpSetBatteryGood :
    decode [0x11, 0x00] = .event (.tpSetBatteryGood false) [] := by decide
theorem test_decode_tpSerialize : decode [0x12] = .event .tpSerialize [] := by decide
-- V-E7 to V-E11, and the empty string of R83
theorem test_decode_unknown :
    decode [0x04] = .refused .unknownTag [] ∧ decode [0x0F] = .refused .unknownTag [] ∧
      decode [0x13] = .refused .unknownTag [] ∧ decode [0xFF] = .refused .unknownTag [] := by decide
theorem test_decode_truncated :
    decode [0x02, 0x21, 0x09, 0x00] = .refused .truncated [] ∧ decode [] = .refused .truncated [] ∧
      decode [0x10] = .refused .truncated [] := by decide
theorem test_decode_badTpValue :
    decode [0x11, 0xFF] = .refused .badTpValue [] ∧ decode [0x10, 0x02] = .refused .badTpValue [] := by
  decide
-- the opcode table's match words
theorem test_tableWords :
    decodeTableWord 8 0x00 = some .reset ∧ decodeTableWord 16 0x0001 = some (.config 0) ∧
      decodeTableWord 72 0x000400000200092102 = some (.setupSig 0) ∧
      decodeTableWord 72 0x02 = some (.setupOther ⟨0, 0, 0, 0, 0, 0, 0⟩) ∧
      decodeTableWord 48 0x03 = some (.data 0 noData) ∧
      decodeTableWord 16 0x0010 = some (.tpSetOnline false) ∧
      decodeTableWord 16 0x0011 = some (.tpSetBatteryGood false) ∧
      decodeTableWord 8 0x12 = some .tpSerialize := by decide

/-! ## RESET and CONFIG -/

-- V-C5: a faulted block with fault code 2 is reset
theorem test_reset_clears :
    marks .reset { pending ⟨true, true⟩ 7 with fault := true, faultCode := 2 } =
      some (false, 0, false) := by decide
-- V-C1 and V-C2: once
theorem test_config_first :
    seen (.config 1) State.reset =
      some ([.regHandler, .pipeInit 0x01 0x01 0x20], ⟨false, false⟩, 0, .awaitingSetup) := by decide
-- V-C4
theorem test_config_again :
    seen (.config 1) (pending ⟨false, true⟩ 35) = some ([], ⟨false, true⟩, 35, .dataPending) := by
  decide

/-! ## SETUP -/

-- V-S2 and V-S3: direction 1
theorem test_setupSig_in_ignored :
    seen (.setupSig 1) registered =
      some ([.armRx 4, .respClaimed], ⟨false, false⟩, 0, .dataPending) := by decide
theorem test_setupSig_in_checked :
    seen (.setupSig 1) (withParams dirChecked registered) =
      some ([.respDeclined], ⟨false, false⟩, 0, .awaitingSetup) := by decide
-- V-S18 and V-S19: a SETUP while a data stage is awaited
theorem test_setupOther_pending_fault :
    marks (.setupOther getDescriptor) (pending ⟨false, false⟩ 0) = some (true, 2, false) := by decide
theorem test_setupOther_pending_rematch :
    seen (.setupOther getDescriptor) (withParams rematch (pending ⟨false, false⟩ 0)) =
      some ([.respDeclined], ⟨false, false⟩, 0, .awaitingSetup) := by decide

/-! ## DATA -/

-- V-K12: at count 60 the battery flag alone
theorem test_data_count_60 :
    seen (.data 4 noData) (pending ⟨true, true⟩ 60) =
      some (reply 0x04, ⟨true, false⟩, 61, .complete) := by decide
-- V-K17: six bits, FAULT at the top, everything discarded
theorem test_data_top_faults :
    exec (.data 4 noData) (withParams (sixBits .fault) (pending ⟨false, false⟩ 63)) =
      .next { withParams (sixBits .fault) (pending ⟨false, false⟩ 63) with
        fault := true, faultCode := 6, trace := [.fault 6] } := by rfl

/-! ## Test port -/

-- V-R12: only the flag
theorem test_tpSetOnline_pending :
    seen (.tpSetOnline true) (pending ⟨false, true⟩ 5) = some ([], ⟨true, true⟩, 5, .dataPending) := by
  decide
-- V-R3 in bytes: 0x06 & ~0x04 is 0x02
theorem test_setOnline_byte :
    (serialize (setOnline false ⟨true, true⟩)).b3 = 0x02 := by decide
-- V-R6
theorem test_tpSetBatteryGood_clear :
    (serialize (setBatteryGood false ⟨true, true⟩)).b3 = 0x04 := by decide
theorem test_tpSetBatteryGood_pending :
    seen (.tpSetBatteryGood true) (pending ⟨true, false⟩ 5) =
      some ([], ⟨true, true⟩, 5, .dataPending) := by decide
-- V-R10
theorem test_tpSerialize :
    seen .tpSerialize { registered with sr := ⟨true, false⟩ } =
      some ([.tpFrame (frame 0x04)], ⟨true, false⟩, 0, .awaitingSetup) := by decide

/-! ## Steps, outputs and scripts -/

-- V-E13: a refused block is quiescent
theorem test_step_refused_block :
    step { State.reset with refused := true, input := [[0x12]] } =
      .next { State.reset with refused := true } := by rfl
-- V-R11: the refusal and what it takes
theorem test_step_refuses :
    step { State.reset with input := [[0x10, 0x02, 0x12]] } =
      .next { State.reset with refused := true, input := [[0x12]] } := by rfl
-- R86's example
theorem test_outText :
    outText (.txInt 1 6 (frame 0x06)) = "TX_INT 01 06 00 00 00 06 00 00" := by decide
-- R84's examples and comment
theorem test_assemble_event :
    assemble "DATA 04 DE AD BE EF ; payload".toList = some [0x03, 0x04, 0xDE, 0xAD, 0xBE, 0xEF] := by
  decide
theorem test_assemble_repeat :
    assemble ("REPEAT 2 ".toList ++ [Char.ofNat 123, Char.ofNat 10] ++ "TP_SERIALIZE".toList ++
      [Char.ofNat 10, Char.ofNat 125]) = some [0x12, 0x12] := by decide

-- R41: class, subclass and protocol are the interface's, whatever that one's codes are
theorem test_identity_delegates : usbIdentity.classCodes = usbIdentity.interfaceClass := rfl

/-! ## Witnesses of hypotheses -/

theorem witness_ResetRevivesAndKeepsEnvironment :
    exec .reset (pending ⟨true, true⟩ 7) = .next (resetBlock (pending ⟨true, true⟩ 7)) := rfl

theorem witness_StepKeepsInvariant :
    BlockInv { pending ⟨true, true⟩ 5 with input := [[0x03, 0x04, 1, 2, 3, 4]] } ∧
      ∃ t, step { pending ⟨true, true⟩ 5 with input := [[0x03, 0x04, 1, 2, 3, 4]] } = .next t :=
  ⟨by decide, _, rfl⟩

/-- One completed transaction, as its trace shows it. -/
def oneDone : State :=
  { pending ⟨true, true⟩ 1 with
    trace := [.regHandler, .pipeInit 1 1 32, .respClaimed] ++ reply 0x06 ++ [.respClaimed],
    input := [[0x03, 0x04, 1, 2, 3, 4]] }

theorem witness_StepKeepsCountOfTransactions :
    CountsTransactions oneDone ∧ ∃ t, step oneDone = .next t := ⟨by decide, _, rfl⟩

/-- The counter's top at six bits, with the flags of R164's last row. -/
def top (o : CntOverflow) : State := withParams (sixBits o) (pending ⟨false, false⟩ 63)

theorem witness_EventsKeepTrajectory :
    isTestWrite (.data 4 noData) = false ∧ OnTrajectory (top .wrap) ∧
      ∃ t, exec (.data 4 noData) (top .wrap) = .next t := ⟨rfl, by decide, _, rfl⟩

theorem witness_StepKeepsAnnouncedOnce :
    AnnouncedOnce oneDone ∧ ∃ t, step oneDone = .next t := ⟨by decide, _, rfl⟩

theorem witness_OnlyFirstConfigAnnounces :
    ∃ t, exec (.config 1) State.reset = .next t ∧
      (t.trace.drop State.reset.trace.length).any isConfigOutput = true := ⟨_, rfl, by decide⟩

/-- Under REMATCH a transaction was claimed and abandoned before the one in flight: strictly more
claims than replies. -/
theorem witness_StepKeepsRepliesWithinClaims :
    let s := withParams rematch { oneDone with trace := oneDone.trace ++ [.respClaimed] }
    ClaimsCoverReplies s ∧ ¬ OneInFlight s ∧ ∃ t, step s = .next t :=
  ⟨by decide, by decide, _, rfl⟩

theorem witness_StepKeepsOneTransactionInFlight :
    oneDone.params.setupInPending = .fault ∧ OneInFlight oneDone ∧ ∃ t, step oneDone = .next t :=
  ⟨rfl, by decide, _, rfl⟩

theorem witness_StepKeepsOutputsLegal :
    OutputsLegal oneDone ∧ ∃ t, step oneDone = .next t := ⟨by decide, _, rfl⟩

/-- Both tags, each at a boundary of the refused values. -/
theorem witness_BadTpValueLeavesTheNextEvent :
    (((0x10 : Byte) = 0x10 ∨ (0x10 : Byte) = 0x11) ∧ 1 < (0x02 : Byte).toNat) ∧
      (((0x11 : Byte) = 0x10 ∨ (0x11 : Byte) = 0x11) ∧ 1 < (0xFF : Byte).toNat) := by decide

/-- For the three test-port statements and FlagsReadBackTheirLastWrites. -/
theorem witness_Live : Live (pending ⟨true, false⟩ 5) := by decide

theorem witness_RegisterReachesOnlyFrames :
    SameButRegister { registered with trace := [.tpFrame (frame 0x00)] }
      { registered with sr := ⟨true, true⟩, trace := [.tpFrame (frame 0x06)] } := by decide

/-- For ConfigRegistersOnce, both of its cases. -/
theorem witness_ConfigRegistersOnce :
    (Live State.reset ∧ State.reset.registered = false) ∧
      (Live registered ∧ registered.registered = true) := by decide

theorem witness_SignatureSetupIsClaimed :
    (Live registered ∧ registered.registered = true ∧ SetupAllowed registered ∧
      (registered.params.matchDir = .ignore ∨ (1 : BitVec 1) = 0)) ∧
    (let s := withParams dirChecked { registered with txnState := .complete }
     Live s ∧ s.registered = true ∧ SetupAllowed s ∧
      (s.params.matchDir = .ignore ∨ (0 : BitVec 1) = 0)) ∧
    (let s := withParams rematch (pending ⟨true, true⟩ 1)
     Live s ∧ s.registered = true ∧ SetupAllowed s ∧
      (s.params.matchDir = .ignore ∨ (0 : BitVec 1) = 0)) := by decide

theorem witness_OtherSetupIsDeclined :
    (Live registered ∧ registered.registered = true ∧ SetupAllowed registered ∧
      sigMatch registered.params.matchDir getDescriptor = false ∧
      (Instr.setupOther getDescriptor).wellFormed = true) ∧
    (let s := withParams dirChecked registered
     Live s ∧ s.registered = true ∧ SetupAllowed s ∧
      sigMatch s.params.matchDir (sigPacket 1) = false) ∧
    (let s := withParams rematch (pending ⟨true, true⟩ 1)
     Live s ∧ s.registered = true ∧ SetupAllowed s ∧
      sigMatch s.params.matchDir getDescriptor = false) := by decide

theorem witness_SetupBeforeConfigIsDeclined :
    Live State.reset ∧ State.reset.registered = false := by decide

theorem witness_SetupWhilePendingFaults :
    let s := pending ⟨true, true⟩ 1
    Live s ∧ s.registered = true ∧ s.txnState = .dataPending ∧ s.params.setupInPending = .fault := by
  decide

theorem witness_ClaimIffEveryFieldMatches :
    Live registered ∧ registered.registered = true ∧ registered.txnState ≠ .dataPending ∧
      (∃ t, exec (setupEvent (sigPacket 0)) registered = .next t) ∧
      ∃ t, exec (setupEvent getDescriptor) registered = .next t :=
  ⟨by decide, rfl, by decide, ⟨_, rfl⟩, ⟨_, rfl⟩⟩

theorem witness_DataUpdatesAcknowledgesTransmits :
    DataCompletes 4 (pending ⟨true, true⟩ 30) ∧ DataCompletes 4 (top .wrap) ∧
      DataCompletes 3 (withParams lenOff (pending ⟨true, true⟩ 30)) ∧
      DataCompletes 0 (withParams lenOff (pending ⟨true, true⟩ 30)) := by decide

theorem witness_WrongLengthIsStalledOrOverruns :
    (let s := pending ⟨true, true⟩ 1
     Live s ∧ s.txnState = .dataPending ∧ (5 : Byte) ≠ 4 ∧ s.params.lenCheck = .on) ∧
    (let s := withParams lenOff (pending ⟨true, true⟩ 1)
     Live s ∧ s.txnState = .dataPending ∧ (5 : Byte) ≠ 4 ∧ (3 : Byte) ≠ 4 ∧
      s.params.lenCheck = .off) := by decide

theorem witness_UnsolicitedDataFaults :
    (Live registered ∧ registered.txnState ≠ .dataPending) ∧
      (let s := { registered with txnState := .complete }
       Live s ∧ s.txnState ≠ .dataPending) := by decide

theorem witness_CounterTopFaultsBeforeMissingPipe :
    (Live (top .fault) ∧ (top .fault).txnState = .dataPending ∧
      (top .fault).seqCnt = 2 ^ cntWidth (top .fault).params - 1 ∧
      (top .fault).params.cntOverflow = .fault) ∧
    (let s := { top .wrap with pipeInit := false }
     Live s ∧ s.txnState = .dataPending ∧ s.seqCnt = 2 ^ cntWidth s.params - 1 ∧
      s.params.cntOverflow = .wrap ∧ s.pipeInit = false) := by decide

theorem witness_ReceiveBufferIsNeverRead :
    SameButRxBuf registered { registered with rxBuf := ⟨1, 2, 3, 4⟩ } := by decide

theorem witness_PendingTransactionHasNoTimeout :
    (let s := withParams rematch (pending ⟨true, true⟩ 1)
     s.txnState = .dataPending ∧ s.input = [] ∧
      (∃ t, exec (.setupOther getDescriptor) s = .next t ∧ t.txnState ≠ .dataPending) ∧
      (∃ t, exec (.data 4 noData) s = .next t ∧ t.txnState ≠ .dataPending) ∧
      ∃ t, exec .reset s = .next t ∧ t.txnState ≠ .dataPending) :=
  ⟨rfl, rfl, ⟨_, rfl, by decide⟩, ⟨_, rfl, by decide⟩, ⟨_, rfl, by decide⟩⟩

theorem witness_TransactionEndsInItsReply :
    let s := { registered with sr := ⟨true, true⟩, seqCnt := 30, txnState := .complete }
    Live s ∧ s.registered = true ∧ s.pipeInit = true ∧ s.txnState ≠ .dataPending ∧
      s.seqCnt ≠ 2 ^ cntWidth s.params - 1 := by decide

/-- The last count that R162 speaks of at six bits: 62 transactions are done, the 63rd leaves 63. -/
def lastCount : State :=
  { withParams (sixBits .wrap) (pending ⟨false, false⟩ 62) with
    trace := List.replicate 62 .ledToggle ++ List.replicate 62 .statusAck ++
      List.replicate 62 (.txInt 1 6 (frame 0x00)) }

theorem witness_ScheduleSeesCountBeforeIncrement :
    CountsTransactions lastCount ∧
      completed lastCount + 1 ≤ 2 ^ cntWidth lastCount.params - 1 ∧
      lastCount.txnState = .dataPending ∧
      ∃ t, exec (.data 4 noData) lastCount = .next t ∧ t.txnState = .complete := by
  refine ⟨?_, ?_, rfl, _, rfl, rfl⟩ <;>
    simp [CountsTransactions, completed, lastCount, cntWidth, withParams, sixBits, pending,
      registered, List.count_replicate, List.countP_replicate, isTxInt, -List.reduceReplicate]

theorem witness_OtherCountsLeaveRegister :
    (29 ∉ [0, 30, 40, 50, 60] ∧ DataCompletes 4 (pending ⟨true, true⟩ 29)) ∧
      (63 ∉ [0, 30, 40, 50, 60] ∧ DataCompletes 4 (top .wrap)) := by decide

theorem witness_IncrementWrapsOrFaultsAtTop :
    (62 < 2 ^ cntWidth (top .wrap).params ∧ 62 + 1 < 2 ^ cntWidth (top .wrap).params) ∧
    (63 < 2 ^ cntWidth (top .wrap).params ∧ 63 + 1 = 2 ^ cntWidth (top .wrap).params ∧
      (top .wrap).params.cntOverflow = .wrap) ∧
    (63 < 2 ^ cntWidth (top .fault).params ∧ 63 + 1 = 2 ^ cntWidth (top .fault).params ∧
      (top .fault).params.cntOverflow = .fault) := by decide

theorem witness_OnlyCompletedTransactionsCount :
    Instr.data 4 noData ≠ .reset ∧
      ∃ t, exec (.data 4 noData) (pending ⟨true, true⟩ 1) = .next t ∧
        t.seqCnt ≠ (pending ⟨true, true⟩ 1).seqCnt := ⟨by decide, _, rfl, by decide⟩

theorem witness_MarkedBlockIsQuiescent :
    Instr.tpSerialize ≠ .reset ∧
      ({ registered with fault := true, faultCode := 1 } : State).fault = true ∧
      ({ registered with refused := true } : State).refused = true := by decide

theorem witness_IllegalStateFaults :
    let s := { registered with txnState := .illegal }
    Instr.tpSerialize ≠ .reset ∧ s.fault = false ∧ s.refused = false ∧ s.txnState = .illegal := by
  decide

theorem witness_FaultsArePrecise :
    ∃ t, exec (.data 4 noData) registered = .next t ∧ registered.fault = false ∧ t.fault = true :=
  ⟨_, rfl, rfl, rfl⟩

/-- For OnlyResetClearsMarks, from a faulted block. -/
theorem witness_OnlyResetClearsMarks :
    let s := { registered with fault := true, faultCode := 1 }
    Instr.config 1 ≠ .reset ∧ s.fault = true ∧ ∃ t, exec (.config 1) s = .next t :=
  ⟨by decide, rfl, _, rfl⟩

theorem witness_EventsWriteOnlyTheirElements :
    (∃ t, exec (.data 4 noData) (pending ⟨true, true⟩ 1) = .next t) ∧
      mayWrite .registered (.data 4 noData) = false ∧
      mayWrite .faultMarks (.tpSetOnline true) = false ∧ registered.txnState ≠ .illegal ∧
      ∃ t, exec (.tpSetOnline true) registered = .next t :=
  ⟨⟨_, rfl⟩, rfl, rfl, by decide, ⟨_, rfl⟩⟩

/-- For TraceOnlyGrows and EarlierOutputsAreNeverRead. -/
theorem witness_TraceOnlyGrows :
    Instr.data 4 noData ≠ .reset ∧ ∃ t, exec (.data 4 noData) oneDone = .next t :=
  ⟨by decide, _, rfl⟩

theorem witness_ContractKeepsBlockAlive :
    BlockInv (top .wrap) ∧ Live (top .wrap) ∧ stackMay (top .wrap) (.data 4 noData) = true ∧
      ((top .wrap).seqCnt = 2 ^ cntWidth (top .wrap).params - 1 →
        (top .wrap).params.cntOverflow = .wrap) ∧
      ∃ t, exec (.data 4 noData) (top .wrap) = .next t :=
  ⟨by decide, by decide, by decide, by decide, _, rfl⟩

theorem witness_StepRunsDecodedEvent :
    (({ registered with input := [[0x12], [0x00]] } : State).input = [[0x12], [0x00]] ∧
      decode [0x12] = .event .tpSerialize []) ∧
    (({ registered with input := [[0x12, 0x00]] } : State).input = [[0x12, 0x00]] ∧
      decode [0x12, 0x00] = .event .tpSerialize [0x00]) := by decide

theorem witness_StepRefusesWhatIsNoEvent :
    (({ registered with input := [[0x04, 0x00]] } : State).input = [[0x04, 0x00]] ∧
      decode [0x04, 0x00] = .refused .unknownTag []) ∧
    (({ registered with input := [[0x10, 0x02, 0x12]] } : State).input = [[0x10, 0x02, 0x12]] ∧
      decode [0x10, 0x02, 0x12] = .refused .badTpValue [0x12]) := by decide

theorem witness_EveryStepHasANextState : State.reset.input = [] := rfl

/-- Both ends of a run, the end of the input and the next RESET, and a run that goes on; the last is
marked, and no end of it is a good one. -/
theorem witness_RunEndsAtInputEndOrNextReset :
    EndsWell registered ∧ EndsWell { registered with input := [[0x00, 0x01, 0x01]] } ∧
    (let s := { registered with input := [[0x12], [0x00]], fault := true, faultCode := 1 }
     runEnds s = false ∧ s.fault = true ∧ ∃ t, step s = .next t ∧ runEnds t = true) :=
  ⟨by decide, by decide, by decide, rfl, _, rfl, by decide⟩

/-- For EncodeOfDecode; DecodeOfEncode's premise is test_wellFormed_setupOther. -/
theorem witness_EncodeOfDecode :
    decode [0x02, 0x80, 0x06, 0x00, 0x01, 0x00, 0x00, 0x12, 0x00, 0x12] =
      .event (.setupOther getDescriptor) [0x12] := by decide

theorem witness_PipeIsTheIdentitysEndpoint :
    Live State.reset ∧ State.reset.registered = false ∧
      ∃ t, exec (.config 1) State.reset = .next t := ⟨by decide, rfl, _, rfl⟩

/-! ### Runs that complete any number of transactions, for ScheduleCheckpoints -/

/-- What one transaction after another finds: a registered idle block with `n` of them done. -/
def Ready (n : Nat) (s : State) : Prop :=
  Live s ∧ s.registered = true ∧ s.pipeInit = true ∧ s.txnState ≠ .dataPending ∧
    s.params = Params.spec ∧ completed s = n

theorem ready_transaction {n : Nat} {s : State} (h : Ready n s) :
    ∃ u, runEvents [.setupSig 0, .data 4 noData] s = .next u ∧ Ready (n + 1) u := by
  obtain ⟨hl, hr, hpi, ht, hp, hn⟩ := h
  have claim : exec (.setupSig 0) s = .next (claimSetup s) := by
    have hm : sigMatch s.params.matchDir (sigPacket 0) = true := by rw [hp]; decide
    rw [exec_of_ruleOf (i := .setupSig 0) rfl, runEvent_of_live hl,
      setupRule_of_allowed hr (fun e => absurd e ht), hm]
    rfl
  obtain ⟨c, hc⟩ : ∃ c, inc (claimSetup s).params (claimSetup s).seqCnt = .ok c := by
    by_cases hc : s.seqCnt = 2 ^ cntWidth s.params - 1
    · refine ⟨0, ?_⟩
      have hw := inc_top_wrap (p := s.params) (by rw [hp]; rfl)
      rw [← hc] at hw
      exact hw
    · exact ⟨_, inc_below_top hc⟩
  have hl' : Live (claimSetup s) := ⟨hl.1, hl.2.1, by simp [claimSetup]⟩
  have rule : dataRule 4 noData (claimSetup s) = completeData noData (claimSetup s) := by
    simp [dataRule, claimSetup, rxLen]
  have done := exec_of_ruleOf (i := .data 4 noData) rfl (claimSetup s)
  rw [runEvent_of_live hl', rule, completeData_ok hc hpi] at done
  refine ⟨_, by simp only [runEvents, claim, done]; rfl, ?_⟩
  refine ⟨⟨hl.1, hl.2.1, by simp [commit, submitReply]⟩, hr, hpi,
    by simp [commit, submitReply], hp, ?_⟩
  rw [← hn]
  simp [completed, commit, submitReply, acknowledge, updateData, claimSetup, rxLen]

/-- CONFIG and `n` transactions. -/
def transactions : Nat → List Instr
  | 0 => []
  | n + 1 => [.setupSig 0, .data 4 noData] ++ transactions n

theorem runEvents_append (is js : List Instr) (s t : State) (h : runEvents is s = .next t) :
    runEvents (is ++ js) s = runEvents js t := by
  induction is generalizing s with
  | nil => cases h; rfl
  | cons i is ih =>
    simp only [runEvents, List.cons_append] at h ⊢
    cases he : exec i s with
    | next u => rw [he] at h; exact ih u h
    | fault f => rw [he] at h; cases h
    | refused r => rw [he] at h; cases h

theorem ready_transactions (n m : Nat) (s : State) (h : Ready m s) :
    ∃ t, runEvents (transactions n) s = .next t ∧ completed t = m + n := by
  induction n generalizing m s with
  | zero => exact ⟨s, rfl, h.2.2.2.2.2⟩
  | succ n ih =>
    obtain ⟨u, hu, hr⟩ := ready_transaction h
    obtain ⟨t, ht, hc⟩ := ih (m + 1) u hr
    exact ⟨t, by rw [transactions, runEvents_append _ _ _ _ hu, ht], by omega⟩

theorem transactions_no_testWrite (n : Nat) : ∀ i ∈ transactions n, isTestWrite i = false := by
  induction n with
  | zero => simp [transactions]
  | succ n ih => simp [transactions, isTestWrite]; exact ih

/-- For every clause of ScheduleCheckpoints: runs from power-on that complete 1, 31, 41, 51 and 61
transactions. -/
theorem witness_ScheduleCheckpoints : ∀ n ∈ [1, 31, 41, 51, 61], ∃ (es : List Instr) (t : State),
    (∀ i ∈ es, isTestWrite i = false) ∧ runEvents es (powerOn Params.spec) = .next t ∧
      completed t = n := by
  intro n _
  have hc : Ready 0 (firstConfig (powerOn Params.spec)) := by
    unfold Ready; decide
  obtain ⟨t, ht, hn⟩ := ready_transactions n 0 _ hc
  refine ⟨.config 1 :: transactions n, t, ?_, ?_, by omega⟩
  · intro i hi
    rcases List.mem_cons.1 hi with rfl | hi
    · rfl
    · exact transactions_no_testWrite n i hi
  · rw [runEvents, show exec (.config 1) (powerOn Params.spec) =
      .next (firstConfig (powerOn Params.spec)) from rfl]
    exact ht

end Sys2Proof.Tests
end

section
/-! SUPPORT. The Status Register's operations (40_status_register.md) and the test-port events that
expose them: what each writes, the frame it leaves, its effect on a block that takes events, and the
reading of a value byte. -/

namespace Sys2Proof

/-- What follows the tag of a test-port write is its value byte: two of them are operands, every
other is refused (R82, R83). -/
theorem decodeTp_cons (mk : Bool → Instr) (b : Byte) (rest : List Byte) :
    decodeTp mk (b :: rest) =
      if b = 0x00 then .event (mk false) rest
      else if b = 0x01 then .event (mk true) rest
      else .refused .badTpValue rest := by
  change decodeTpValue mk b rest = _
  by_cases h0 : b = 0x00
  · rw [if_pos h0, h0]; exact decodeTpValue_byte mk false rest
  by_cases h1 : b = 0x01
  · rw [if_neg h0, if_pos h1, h1]; exact decodeTpValue_byte mk true rest
  have hb : 1 < b.toNat := by bv_omega
  rw [if_neg h0, if_neg h1, decodeTpValue, if_pos hb]

namespace Machine

/-! ## The operations -/

variable (r : StatusReg)

@[simp] theorem setOnline_onLine (v : Bool) : (setOnline v r).onLine = v := rfl
@[simp] theorem setOnline_batteryGood (v : Bool) :
    (setOnline v r).batteryGood = r.batteryGood := rfl
@[simp] theorem setBatteryGood_onLine (g : Bool) : (setBatteryGood g r).onLine = r.onLine := rfl
@[simp] theorem setBatteryGood_batteryGood (g : Bool) :
    (setBatteryGood g r).batteryGood = g := rfl

theorem bitByte_eq_tpValueByte (b : Bool) : bitByte b = tpValueByte b := by
  cases b <;> rfl

/-- Byte 3 in the terms of R103's formula. -/
theorem statusByte_eq :
    statusByte r = (tpValueByte r.onLine <<< 2) ||| (tpValueByte r.batteryGood <<< 1) := by
  rw [statusByte, bitByte_eq_tpValueByte, bitByte_eq_tpValueByte]

/-- R106's four values. -/
theorem statusByte_mem_legal : statusByte r ∈ ([0x00, 0x02, 0x04, 0x06] : List Byte) := by
  rw [statusByte_eq]
  cases r.onLine <;> cases r.batteryGood <;> decide

theorem statusByte_setOnline (v : Bool) :
    statusByte (setOnline v r) = (statusByte r &&& ~~~(0x04 : Byte)) ||| (tpValueByte v <<< 2) := by
  simp only [statusByte_eq, setOnline_onLine, setOnline_batteryGood]
  cases v <;> cases r.onLine <;> cases r.batteryGood <;> rfl

theorem statusByte_setBatteryGood (g : Bool) :
    statusByte (setBatteryGood g r) =
      (statusByte r &&& ~~~(0x02 : Byte)) ||| (tpValueByte g <<< 1) := by
  simp only [statusByte_eq, setBatteryGood_onLine, setBatteryGood_batteryGood]
  cases g <;> cases r.onLine <;> cases r.batteryGood <;> rfl

/-- The frame depends on byte 3 alone: the other five bytes are hardwired (R24). -/
theorem serialize_eq_of_statusByte {r r' : StatusReg} {b3 : Byte} (h : statusByte r' = b3) :
    serialize r' = { serialize r with b3 := b3 } := by
  rw [← h]; rfl

/-! ## The test-port events -/

variable {s : State}

theorem exec_tpSetOnline_of_live (v : Bool) (h : Live s) :
    exec (.tpSetOnline v) s = .next (setSr (setOnline v s.sr) s) := by
  rw [exec_of_ruleOf rfl, runEvent_of_live h]; rfl

theorem exec_tpSetBatteryGood_of_live (g : Bool) (h : Live s) :
    exec (.tpSetBatteryGood g) s = .next (setSr (setBatteryGood g s.sr) s) := by
  rw [exec_of_ruleOf rfl, runEvent_of_live h]; rfl

theorem exec_tpSerialize_of_live (h : Live s) :
    exec .tpSerialize s = .next (emit (.tpFrame (serialize s.sr)) s) := by
  rw [exec_of_ruleOf rfl, runEvent_of_live h]; rfl

end Machine
end Sys2Proof
end

section
/-! The statements of 40_status_register.md about the test-port events. -/

namespace Sys2Proof.Machine

/-- Settles O10: the effect on a block that takes events, and the reading of the value byte. -/
theorem setOnlineWritesBitTwoOnly : Obligations.SetOnlineWritesBitTwoOnly := by
  refine ⟨fun s v live => ⟨_, exec_tpSetOnline_of_live v live, rfl, rfl, rfl, ?_⟩,
    fun b rest => ⟨rest, ?_⟩⟩
  · exact serialize_eq_of_statusByte (statusByte_setOnline s.sr v)
  · exact (decode_tpSetOnline (b :: rest)).trans (decodeTp_cons .tpSetOnline b rest)

/-- Settles O11, as O10 with the other flag. -/
theorem setBatteryGoodWritesBitOneOnly : Obligations.SetBatteryGoodWritesBitOneOnly := by
  refine ⟨fun s g live => ⟨_, exec_tpSetBatteryGood_of_live g live, rfl, rfl, rfl, ?_⟩,
    fun b rest => ⟨rest, ?_⟩⟩
  · exact serialize_eq_of_statusByte (statusByte_setBatteryGood s.sr g)
  · exact (decode_tpSetBatteryGood (b :: rest)).trans (decodeTp_cons .tpSetBatteryGood b rest)

/-- Settles O12: TP_SERIALIZE writes neither the register nor a mark, so that the second one finds a
block that takes events, with the same register. -/
theorem serializeEmitsFrameAndNothingElse : Obligations.SerializeEmitsFrameAndNothingElse := by
  refine ⟨fun s live => ⟨_, statusByte s.sr, exec_tpSerialize_of_live live, statusByte_eq s.sr,
    statusByte_mem_legal s.sr, rfl, ?_⟩, decode_tpSerialize⟩
  have still : Live (emit (.tpFrame (serialize s.sr)) s) := live
  exact exec_tpSerialize_of_live still

end Sys2Proof.Machine
end

section
/-! SUPPORT. The outcome of the two rules of 41_control_transfer.md on the paths without a fault: a
SETUP that is declined, and a data stage that completes its transaction. -/

namespace Sys2Proof.Machine

variable {s : State}

/-- The declining branch of R124, in a registered block whose SETUP R127 does not turn away. -/
theorem runEvent_setupRule_of_mismatch {p : SetupPacket} (live : Live s)
    (hreg : s.registered = true) (allowed : SetupAllowed s)
    (mismatch : sigMatch s.params.matchDir p = false) :
    runEvent (setupRule p) s = .next (declineSetup s) := by
  rw [runEvent_of_live live, setupRule_of_allowed hreg allowed, mismatch]; rfl

theorem live_declineSetup (live : Live s) : Live (declineSetup s) := by
  obtain ⟨hfault, hrefused, -⟩ := live
  exact ⟨hfault, hrefused, by simp [declineSetup]⟩

/-- The counter advances where it has room or wraps (R161). -/
theorem inc_eq_nextCount
    (room : s.seqCnt = 2 ^ cntWidth s.params - 1 → s.params.cntOverflow = .wrap) :
    inc s.params s.seqCnt = .ok (nextCount s) := by
  unfold nextCount
  split
  · rename_i top; rw [top]; exact inc_top_wrap (room top)
  · rename_i below; exact inc_below_top below

/-- An awaited data stage whose length is accepted goes on to its completion, a short one under
LEN_CHECK = OFF like one of four bytes (R132). -/
theorem dataRule_of_accepted {len : Byte} (d : Payload) (pending : s.txnState = .dataPending)
    (accepted : len = 4 ∨ (s.params.lenCheck = .off ∧ len.toNat < 4)) :
    dataRule len d s = completeData d s := by
  unfold dataRule
  rw [if_neg (not_not_intro pending)]
  split
  · rfl
  · rename_i other
    obtain ⟨off, short⟩ := accepted.resolve_left other
    have no_overrun : ¬ rxLen.toNat < len.toNat := Nat.not_lt.2 short.le
    rw [off]
    exact if_neg no_overrun

/-- The effect of a data stage that completes its transaction (R131). -/
theorem exec_data_of_completes {len : Byte} (d : Payload) (h : DataCompletes len s) :
    exec (.data len d) s =
      .next (submitReply (acknowledge (updateData (nextCount s) d s))) := by
  obtain ⟨live, pending, pipe, accepted, room⟩ := h
  rw [exec_of_ruleOf rfl, runEvent_of_live live, dataRule_of_accepted d pending accepted,
    completeData_ok (inc_eq_nextCount room) pipe]
  rfl

end Sys2Proof.Machine
end

section
/-! The statements of 41_control_transfer.md about a declined SETUP and a completed DATA. -/

namespace Sys2Proof.Machine

/-- Settles O18: both names of a SETUP run the one rule, which takes its declining branch. -/
theorem otherSetupIsDeclined : Obligations.OtherSetupIsDeclined := by
  intro s p live hreg allowed mismatch
  have declined := runEvent_setupRule_of_mismatch live hreg allowed mismatch
  refine ⟨declineSetup s, rfl, live_declineSetup live, ?_, fun _ => ?_⟩
  · rw [exec_setupEvent, declined]
  · rw [exec_of_ruleOf (i := .setupOther p) rfl, declined]

/-- Settles O23: the completion's effect, read as one record. -/
theorem dataUpdatesAcknowledgesTransmits : Obligations.DataUpdatesAcknowledgesTransmits := by
  intro s len d completes
  rw [exec_data_of_completes d completes, completed_state]

end Sys2Proof.Machine
end

section
/-! SUPPORT. The demo schedule at a count it does not name, and a DATA event that completes a
transaction: what its completion implies, and how the counter follows the number of completed
transactions (42_demo_schedule.md). -/

namespace Sys2Proof.Machine

/-- The last branch of the schedule (R160). -/
theorem sched_of_not_mem {c : Nat} (r : StatusReg) (h : c ∉ [0, 30, 40, 50, 60]) :
    sched c r = r := by
  simp only [List.mem_cons, List.not_mem_nil, or_false, not_or] at h
  obtain ⟨h0, h30, h40, h50, h60⟩ := h
  rw [sched, if_neg h0, if_neg h30, if_neg h40, if_neg h50, if_neg h60]

variable {s t : State}

/-- Of the effects of a DATA that was awaited, only R131's ends in the complete state: quiescence and
a fault leave the state pending, a stall returns to awaiting a SETUP. -/
theorem exec_data_to_complete {len : Byte} {d : Payload} (h : exec (.data len d) s = .next t)
    (pending : s.txnState = .dataPending) (complete : t.txnState = .complete) :
    ∃ n, inc s.params s.seqCnt = .ok n ∧ t = submitReply (acknowledge (updateData n d s)) := by
  have not_complete : s.txnState ≠ .complete := by simp [pending]
  rw [exec_of_ruleOf rfl] at h
  rcases runEvent_cases h with ⟨-, rfl⟩ | ⟨-, -, rfl⟩ | ⟨-, c, -, rfl⟩ | ⟨-, ok⟩
  · exact absurd complete not_complete
  · exact absurd complete not_complete
  · exact absurd complete not_complete
  · obtain ⟨-, ⟨-, -, rfl⟩ | ⟨-, done⟩⟩ := dataRule_cases ok
    · simp [stallData] at complete
    · obtain ⟨n, hn, -, ht⟩ := completeData_cases done
      exact ⟨n, hn, ht⟩

/-- A completed data stage acknowledges once (R131, R138). -/
theorem completed_submitReply (n : Nat) (d : Payload) (s : State) :
    completed (submitReply (acknowledge (updateData n d s))) = completed s + 1 := by
  rw [completed_state]
  simp [completed]

/-- Below the counter's top the count modulo 2^CNT_W is the count itself. -/
theorem seqCnt_eq_completed (counts : CountsTransactions s)
    (room : completed s + 1 ≤ 2 ^ cntWidth s.params - 1) : s.seqCnt = completed s := by
  obtain ⟨hseq, -, -⟩ := counts
  rw [hseq]
  exact Nat.mod_eq_of_lt (by omega)

/-- Below the counter's top the increment neither wraps nor faults. -/
theorem eq_succ_of_inc {p : Params} {c n : Nat} (h : inc p c = .ok n)
    (room : c + 1 ≤ 2 ^ cntWidth p - 1) : n = c + 1 := by
  rcases inc_cases h with ⟨top, -, -⟩ | ⟨-, hn⟩
  · omega
  · exact hn

end Sys2Proof.Machine
end

section
/-! The statements of 42_demo_schedule.md about the schedule's counts and the count it sees. -/

namespace Sys2Proof.Machine

/-- Settles O32: the completed data stage applies the schedule to the old counter, and below the
counter's top that is the number of transactions completed before it. -/
theorem scheduleSeesCountBeforeIncrement : Obligations.ScheduleSeesCountBeforeIncrement := by
  intro s t len d h pending complete
  obtain ⟨n, hn, rfl⟩ := exec_data_to_complete h pending complete
  refine ⟨⟨rfl, hn⟩, fun counts room => ?_⟩
  have hseq := seqCnt_eq_completed counts room
  rw [← hseq] at room
  rw [completed_submitReply, Nat.add_sub_cancel, ← hseq]
  exact ⟨rfl, rfl, eq_succ_of_inc hn room⟩

/-- Settles O33: the completion's effect, at a count where the schedule does nothing. -/
theorem otherCountsLeaveRegister : Obligations.OtherCountsLeaveRegister := by
  intro c other
  refine ⟨fun r => sched_of_not_mem r other, ?_⟩
  rintro s len d rfl completes
  have done := exec_data_of_completes d completes
  rw [completed_state, sched_of_not_mem s.sr other] at done
  exact ⟨_, done, rfl, rfl, rfl⟩

/-- Settles O31: the five branches compute, and the last one is the identity. -/
theorem scheduleAtItsFiveCounts : Obligations.ScheduleAtItsFiveCounts :=
  ⟨fun _ => ⟨rfl, rfl, rfl, rfl, rfl⟩, fun _ r other => sched_of_not_mem r other⟩

end Sys2Proof.Machine
end

section
/-! SUPPORT. The effects that an event can have (41_control_transfer.md R120 to R135), each as one
record of the state before it, and the events that can have them. -/

namespace Sys2Proof.Machine

/-! ## Effects as records -/

section
variable (s : State)

theorem firstConfig_eq : firstConfig s =
    { s with
      registered := true, pipeInit := true,
      trace := s.trace ++ [.regHandler, .pipeInit 1 1 32] } := by
  simp [firstConfig, emit, setPipeInit, setRegistered, intEp, dirIn, intMps]

theorem claimSetup_eq : claimSetup s =
    { s with
      rxBuf := Config.armedRxBuf s.freeIdx, freeIdx := s.freeIdx + 1, txnState := .dataPending,
      trace := s.trace ++ [.armRx 4, .respClaimed] } := by
  simp [claimSetup, emit, setTxn, armRxBuf, rxLen]

theorem declineSetup_eq : declineSetup s =
    { s with txnState := .awaitingSetup, trace := s.trace ++ [.respDeclined] } := rfl

theorem stallData_eq : stallData s =
    { s with txnState := .awaitingSetup, trace := s.trace ++ [.statusStall] } := rfl

theorem raiseFault_eq (c : FaultCode) : raiseFault c s =
    { s with
      fault := true, faultCode := faultBits c,
      trace := s.trace ++ [.fault (faultBits c)] } := rfl

end

/-! ## The effect of each event -/

/-- The two names of SETUP. -/
def isSetup : Instr → Bool
  | .setupSig _ => true
  | .setupOther _ => true
  | .reset => false
  | .config _ => false
  | .data _ _ => false
  | .tpSetOnline _ => false
  | .tpSetBatteryGood _ => false
  | .tpSerialize => false

/-- The effects an event can have on a state: RESET's, the dispatch's, and those of each rule. -/
inductive Effect (s : State) : Instr → State → Prop
  | reset : Effect s .reset (resetBlock s)
  | quiescent {i : Instr} (ne : i ≠ .reset) (marked : quiescent s = true) : Effect s i s
  | illegal {i : Instr} (ne : i ≠ .reset) (unmarked : quiescent s = false)
      (state : s.txnState = .illegal) : Effect s i (raiseFault .illegalState s)
  | fault {i : Instr} {rule : State → Except FaultCode State} {c : FaultCode} (live : Live s)
      (hrule : ruleOf i = some rule) (error : rule s = .error c) : Effect s i (raiseFault c s)
  | laterConfig (cfg : Byte) (live : Live s) (hreg : s.registered = true) :
      Effect s (.config cfg) s
  | firstConfig (cfg : Byte) (live : Live s) (hreg : s.registered = false) :
      Effect s (.config cfg) (firstConfig s)
  | early {i : Instr} (setup : isSetup i = true) (live : Live s) (hreg : s.registered = false) :
      Effect s i (emit .respDeclined s)
  | decline {i : Instr} (setup : isSetup i = true) (live : Live s) (hreg : s.registered = true)
      (allowed : SetupAllowed s) : Effect s i (declineSetup s)
  | claim {i : Instr} (setup : isSetup i = true) (live : Live s) (hreg : s.registered = true)
      (allowed : SetupAllowed s) : Effect s i (claimSetup s)
  | stall (len : Byte) (d : Payload) (live : Live s) (pending : s.txnState = .dataPending) :
      Effect s (.data len d) (stallData s)
  | complete (len : Byte) (d : Payload) (n : Nat) (live : Live s)
      (pending : s.txnState = .dataPending)
      (accepted : len = 4 ∨ (s.params.lenCheck = .off ∧ len.toNat < 4))
      (count : inc s.params s.seqCnt = .ok n) :
      Effect s (.data len d) (submitReply (acknowledge (updateData n d s)))
  | online (v : Bool) (live : Live s) : Effect s (.tpSetOnline v) (setSr (setOnline v s.sr) s)
  | battGood (g : Bool) (live : Live s) :
      Effect s (.tpSetBatteryGood g) (setSr (setBatteryGood g s.sr) s)
  | frame (live : Live s) : Effect s .tpSerialize (emit (.tpFrame (serialize s.sr)) s)

variable {s t : State} {i : Instr}

theorem effect_of_setupRule {p : SetupPacket} (setup : isSetup i = true) (live : Live s)
    (h : setupRule p s = .ok t) : Effect s i t := by
  rcases setupRule_cases h with ⟨hreg, rfl⟩ | ⟨hreg, allowed, -, rfl⟩ | ⟨hreg, allowed, -, rfl⟩
  · exact .early setup live hreg
  · exact .claim setup live hreg allowed
  · exact .decline setup live hreg allowed

theorem effect_of_dataRule {len : Byte} {d : Payload} (live : Live s)
    (h : dataRule len d s = .ok t) : Effect s (.data len d) t := by
  obtain ⟨pending, ⟨-, -, rfl⟩ | ⟨accepted, done⟩⟩ := dataRule_cases h
  · exact .stall len d live pending
  · obtain ⟨n, count, -, rfl⟩ := completeData_cases done
    exact .complete len d n live pending accepted count

/-- Every answer of exec is one of the effects. -/
theorem effect_of_exec (h : exec i s = .next t) : Effect s i t := by
  rcases exec_cases h with ⟨rfl, rfl⟩ | ⟨ne, ⟨marked, rfl⟩ | ⟨unmarked, state, rfl⟩ |
    ⟨live, rule, c, hrule, error, rfl⟩ | ⟨live, rule, hrule, ok⟩⟩
  · exact .reset
  · exact .quiescent ne marked
  · exact .illegal ne unmarked state
  · exact .fault live hrule error
  · cases i <;> simp only [ruleOf, reduceCtorEq, Option.some.injEq] at hrule <;> subst hrule
    case config cfg =>
      rcases configRule_cases ok with ⟨hreg, rfl⟩ | ⟨hreg, rfl⟩
      · exact .laterConfig cfg live hreg
      · exact .firstConfig cfg live hreg
    case setupSig => exact effect_of_setupRule rfl live ok
    case setupOther => exact effect_of_setupRule rfl live ok
    case data => exact effect_of_dataRule live ok
    case tpSetOnline v => cases ok; exact .online v live
    case tpSetBatteryGood g => cases ok; exact .battGood g live
    case tpSerialize => cases ok; exact .frame live

/-- Which events raise a fault of their own in a legal transaction state: SETUP and DATA. -/
theorem isSetup_or_data_of_error {rule : State → Except FaultCode State} {c : FaultCode}
    (hrule : ruleOf i = some rule) (error : rule s = .error c) :
    isSetup i = true ∨ ∃ len d, i = .data len d := by
  cases i <;> simp only [ruleOf, reduceCtorEq, Option.some.injEq] at hrule <;> subst hrule
  case config => cases error
  case setupSig => exact .inl rfl
  case setupOther => exact .inl rfl
  case data len d => exact .inr ⟨len, d, rfl⟩
  all_goals cases error

/-- Every event but RESET leaves the trace with its own outputs appended. -/
theorem trace_of_exec (ne : i ≠ .reset) (h : exec i s = .next t) :
    ∃ outs, t.trace = s.trace ++ outs := by
  cases effect_of_exec h with
  | reset => exact absurd rfl ne
  | quiescent | laterConfig | online | battGood => exact ⟨[], (List.append_nil _).symm⟩
  | illegal | fault | early | decline | stall | frame => exact ⟨[_], rfl⟩
  | firstConfig => rw [firstConfig_eq]; exact ⟨_, rfl⟩
  | claim => rw [claimSetup_eq]; exact ⟨_, rfl⟩
  | complete => rw [completed_state]; exact ⟨_, rfl⟩

end Sys2Proof.Machine
end

section
/-! The invariants: each is kept by every effect an event can have, and so by every step
(10_state.md section 3, 20_memory.md section 3, 41_control_transfer.md sections 3 and 5). -/

namespace Sys2Proof.Machine

variable {s t : State} {i : Instr}

/-! ## The machine's invariant -/

/-- The codes a fault leaves, 4 and 5 being those of the unused state and of the missing pipe. -/
theorem faultBits_allowed {c : FaultCode} (legal : c ≠ .illegalState) (pipe : c ≠ .txPipeUninit) :
    faultBits c ≠ 0 ∧ faultBits c ≠ 4 ∧ faultBits c ≠ 5 ∧ faultBits c ≠ 7 := by
  cases c <;> simp_all [faultBits]

theorem exec_keeps_blockInv (inv : BlockInv s) (h : exec i s = .next t) : BlockInv t := by
  have clauses := inv
  obtain ⟨legal, bound, flags, begun, marks, codes⟩ := clauses
  apply exec_effects (h := h)
  case reset => exact ⟨by simp, Nat.two_pow_pos _, rfl, by simp, by simp, by simp⟩
  case fault =>
    intro c _ _ illegal pipe
    have pipe_there : c ≠ .txPipeUninit := by
      intro hc
      obtain ⟨pending, absent⟩ := pipe hc
      have hreg := begun (by simp [pending])
      rw [flags, absent] at hreg
      cases hreg
    obtain ⟨h0, allowed⟩ := faultBits_allowed (fun hc => legal (illegal.1 hc)) pipe_there
    exact ⟨legal, bound, flags, begun, ⟨nofun, fun hc => absurd hc h0⟩, allowed⟩
  case config => exact fun _ _ => ⟨legal, bound, rfl, fun _ => rfl, marks, codes⟩
  case decline =>
    exact fun _ _ _ => ⟨by simp [declineSetup], bound, flags, by simp [declineSetup], marks, codes⟩
  case claim =>
    exact fun _ hreg _ => ⟨by simp [claimSetup], bound, flags, fun _ => hreg, marks, codes⟩
  case stall =>
    exact fun _ _ => ⟨by simp [stallData], bound, flags, by simp [stallData], marks, codes⟩
  case complete =>
    intro n d _ pending _ count
    have in_width : n < 2 ^ cntWidth s.params := by
      rw [inc_mod bound count]; exact Nat.mod_lt _ (Nat.two_pow_pos _)
    exact ⟨by simp [submitReply], in_width, flags, fun _ => begun (by simp [pending]), marks, codes⟩
  all_goals intros; exact inv

/-- Settles O4: RESET restores the invariant, and every other effect keeps each clause; the two
codes ruled out would need an illegal state, or a data stage awaited before registration. -/
theorem stepKeepsInvariant : Obligations.StepKeepsInvariant :=
  fun _ _ inv h =>
    step_keeps (fun _ _ hs => hs) (fun _ hs => hs) (fun _ _ _ => exec_keeps_blockInv) inv h

/-! ## The account of completed transactions -/

theorem exec_keeps_countsTransactions (counts : CountsTransactions s) (h : exec i s = .next t) :
    CountsTransactions t := by
  have clauses := counts
  obtain ⟨hseq, hint, hled⟩ := clauses
  apply exec_effects (h := h)
  case reset => exact ⟨(Nat.zero_mod _).symm, rfl, rfl⟩
  case complete =>
    intro n d _ _ _ count
    have bound : s.seqCnt < 2 ^ cntWidth s.params := by
      rw [hseq]; exact Nat.mod_lt _ (Nat.two_pow_pos _)
    have hn : n = (completed s + 1) % 2 ^ cntWidth s.params := by
      rw [inc_mod bound count, hseq, Nat.mod_add_mod]
    refine ⟨by rw [completed_submitReply]; exact hn, ?_⟩
    rw [completed_submitReply, completed_state]
    simp [isTxInt, hint, hled]
  all_goals
    intros
    simpa [CountsTransactions, completed, isTxInt, firstConfig_eq, claimSetup_eq, declineSetup_eq,
      stallData_eq] using counts

/-- Settles O5: a completed data stage adds one to each of the counts, no other effect emits an
acknowledgment, a toggle or a reply. -/
theorem stepKeepsCountOfTransactions : Obligations.StepKeepsCountOfTransactions :=
  fun _ _ counts h =>
    step_keeps (fun _ _ hs => hs) (fun _ hs => hs) (fun _ _ _ => exec_keeps_countsTransactions)
      counts h

/-! ## The trajectory -/

/-- The schedule moves the flags from one place of the trajectory to the next (R164). -/
theorem sched_trajectory (c : Nat) : sched c (trajectory c) = trajectory (c + 1) := by
  by_cases named : c ∈ [0, 30, 40, 50, 60]
  · simp only [List.mem_cons, List.not_mem_nil, or_false] at named
    rcases named with rfl | rfl | rfl | rfl | rfl <;> rfl
  · rw [sched_of_not_mem _ named]
    simp only [List.mem_cons, List.not_mem_nil, or_false, not_or] at named
    obtain ⟨h0, h30, h40, h50, h60⟩ := named
    unfold trajectory
    rw [if_neg h0, if_neg c.succ_ne_zero]
    split_ifs <;> simp <;> omega

theorem trajectory_of_gt {c : Nat} (h : 60 < c) : trajectory c = ⟨false, false⟩ := by
  rw [trajectory, if_neg (by omega), if_neg (by omega), if_neg (by omega), if_neg (by omega),
    if_neg (by omega)]

/-- The schedule follows the counter, over a wrap too: CNT_W is at least 6, so that at the
counter's top the trajectory has come back to where it starts (R167). -/
theorem sched_trajectory_of_inc {p : Params} {c n : Nat} (h : inc p c = .ok n) :
    sched c (trajectory c) = trajectory n := by
  rcases inc_cases h with ⟨top, -, rfl⟩ | ⟨-, rfl⟩
  · have wide := cntWidth_ge p
    rw [sched_trajectory, trajectory_of_gt (by omega)]
    rfl
  · exact sched_trajectory c

theorem exec_keeps_onTrajectory (deployed : isTestWrite i = false) (on : OnTrajectory s)
    (h : exec i s = .next t) : OnTrajectory t := by
  obtain ⟨flags, bound⟩ := on
  cases effect_of_exec h with
  | reset => exact ⟨rfl, Nat.two_pow_pos _⟩
  | complete len d n live pending accepted count =>
    refine ⟨?_, ?_⟩
    · change sched s.seqCnt s.sr = trajectory n
      rw [flags, sched_trajectory_of_inc count]
    · change n < 2 ^ cntWidth s.params
      rw [inc_mod bound count]
      exact Nat.mod_lt _ (Nat.two_pow_pos _)
  | online | battGood => cases deployed
  | quiescent | illegal | fault | laterConfig | firstConfig | early | decline | claim | stall
  | frame =>
    exact ⟨flags, bound⟩

/-- Settles O6: only RESET and a completed data stage touch the flags or the counter, and the
schedule follows the counter along the trajectory, its wrap included. -/
theorem eventsKeepTrajectory : Obligations.EventsKeepTrajectory :=
  fun _ _ _ => exec_keeps_onTrajectory

/-! ## The outputs of the trace -/

/-- The announcement that the trace holds, by the registration flag. -/
def announcement (registered : Bool) : List OutEvent :=
  if registered = true then [.regHandler, .pipeInit 1 1 32] else []

theorem announcedOnce_iff :
    AnnouncedOnce s ↔ s.trace.filter isConfigOutput = announcement s.registered := Iff.rfl

theorem exec_keeps_announcedOnce (announced : AnnouncedOnce s) (h : exec i s = .next t) :
    AnnouncedOnce t := by
  rw [announcedOnce_iff] at announced
  apply exec_effects (h := h)
  case reset => rfl
  case config =>
    intro _ hreg
    have unannounced : s.trace.filter isConfigOutput = [] := by rw [announced, hreg]; rfl
    rw [announcedOnce_iff, firstConfig_eq, List.filter_append, unannounced]
    rfl
  all_goals
    intros
    simpa [announcedOnce_iff, isConfigOutput, claimSetup_eq, declineSetup_eq, stallData_eq,
      completed_state] using announced

/-- Settles O7: only the first CONFIG emits a configuration output, and it sets the flag. -/
theorem stepKeepsAnnouncedOnce : Obligations.StepKeepsAnnouncedOnce :=
  fun _ _ announced h =>
    step_keeps (fun _ _ hs => hs) (fun _ hs => hs) (fun _ _ _ => exec_keeps_announcedOnce)
      announced h

theorem exec_keeps_params (h : exec i s = .next t) : t.params = s.params := by
  apply exec_effects (P := fun t => t.params = s.params) (h := h) <;> intros <;> rfl

/-- A SETUP that R127 lets through under FAULT finds no data stage awaited. -/
theorem not_pending_of_allowed (policy : s.params.setupInPending = .fault)
    (allowed : SetupAllowed s) : s.txnState ≠ .dataPending := by
  intro pending
  rw [allowed pending] at policy
  cases policy

/-- The number of transactions in flight. -/
def inFlight (x : TxnState) : Nat := if x = .dataPending then 1 else 0

@[simp] theorem inFlight_dataPending : inFlight .dataPending = 1 := rfl
@[simp] theorem inFlight_awaitingSetup : inFlight .awaitingSetup = 0 := rfl
@[simp] theorem inFlight_complete : inFlight .complete = 0 := rfl

theorem inFlight_of_ne {x : TxnState} (h : x ≠ .dataPending) : inFlight x = 0 := if_neg h

theorem oneInFlight_iff :
    OneInFlight s ↔ s.trace.count .respClaimed =
      s.trace.count .statusAck + s.trace.count .statusStall + inFlight s.txnState := Iff.rfl

theorem claimsCoverReplies_iff :
    ClaimsCoverReplies s ↔ s.trace.count .statusAck + s.trace.count .statusStall +
      inFlight s.txnState ≤ s.trace.count .respClaimed := Iff.rfl

theorem exec_keeps_oneInFlight (policy : s.params.setupInPending = .fault) (one : OneInFlight s)
    (h : exec i s = .next t) : OneInFlight t := by
  rw [oneInFlight_iff] at one
  apply exec_effects (h := h)
  case reset => rfl
  case decline =>
    intro _ _ allowed
    rw [inFlight_of_ne (not_pending_of_allowed policy allowed)] at one
    simpa [oneInFlight_iff, declineSetup_eq] using one
  case claim =>
    intro _ _ allowed
    rw [inFlight_of_ne (not_pending_of_allowed policy allowed)] at one
    simpa [oneInFlight_iff, claimSetup_eq] using one
  case stall =>
    intro _ pending
    simpa [oneInFlight_iff, stallData_eq, pending, Nat.add_assoc] using one
  case complete =>
    intro _ _ _ pending _ _
    simpa [oneInFlight_iff, completed_state, pending, Nat.add_right_comm] using one
  all_goals
    intros
    simpa [oneInFlight_iff, firstConfig_eq] using one

/-- Settles O8: a claim opens the one transaction in flight, its stall or acknowledgment closes
it, and under FAULT no SETUP abandons it. -/
theorem stepKeepsOneTransactionInFlight : Obligations.StepKeepsOneTransactionInFlight := by
  intro s t policy one h
  have kept : t.params.setupInPending = .fault ∧ OneInFlight t :=
    step_keeps (P := fun s => s.params.setupInPending = .fault ∧ OneInFlight s)
      (fun _ _ hs => hs) (fun _ hs => hs)
      (fun _ _ _ ⟨hp, hone⟩ h =>
        ⟨by rw [exec_keeps_params h]; exact hp, exec_keeps_oneInFlight hp hone h⟩)
      ⟨policy, one⟩ h
  exact kept.2

theorem exec_keeps_claimsCoverReplies (covered : ClaimsCoverReplies s) (h : exec i s = .next t) :
    ClaimsCoverReplies t := by
  rw [claimsCoverReplies_iff] at covered
  apply exec_effects (h := h)
  case reset => exact Nat.le_refl _
  case decline =>
    intros
    simpa [claimsCoverReplies_iff, declineSetup_eq] using Nat.le_of_add_right_le covered
  case claim =>
    intros
    simpa [claimsCoverReplies_iff, claimSetup_eq] using Nat.le_of_add_right_le covered
  case stall =>
    intro _ pending
    simpa [claimsCoverReplies_iff, stallData_eq, pending, Nat.add_assoc] using covered
  case complete =>
    intro _ _ _ pending _ _
    simpa [claimsCoverReplies_iff, completed_state, pending, Nat.add_right_comm] using covered
  all_goals
    intros
    rw [claimsCoverReplies_iff]
    simpa [firstConfig_eq] using covered

/-- Settles O57: a claim pays for the transaction it opens, whatever becomes of the one before it.
-/
theorem stepKeepsRepliesWithinClaims : Obligations.StepKeepsRepliesWithinClaims :=
  fun _ _ covered h =>
    step_keeps (fun _ _ hs => hs) (fun _ hs => hs) (fun _ _ _ => exec_keeps_claimsCoverReplies)
      covered h

/-- R106: the register has no other frames. -/
theorem serialize_mem_legalFrames (r : StatusReg) : serialize r ∈ legalFrames := by
  obtain ⟨onLine, batteryGood⟩ := r
  cases onLine <;> cases batteryGood <;> decide

/-- The codes of R180 are 1 to 6. -/
theorem faultBits_range (c : FaultCode) : 1 ≤ (faultBits c).toNat ∧ (faultBits c).toNat ≤ 6 := by
  cases c <;> decide

theorem legalOutput_fault (c : FaultCode) : legalOutput (.fault (faultBits c)) = true := by
  cases c <;> rfl

theorem exec_keeps_outputsLegal (legal : OutputsLegal s) (h : exec i s = .next t) :
    OutputsLegal t := by
  apply exec_effects (h := h)
  case reset => rfl
  case fault => intro c _ _ _ _; simpa [OutputsLegal, legalOutput_fault] using legal
  all_goals
    intros
    simpa [OutputsLegal, legalOutput, serialize_mem_legalFrames, firstConfig_eq, claimSetup_eq,
      declineSetup_eq, stallData_eq, completed_state] using legal

/-- Settles O9: each effect appends outputs with their operands as R81 gives them, its frames the
register's own. -/
theorem stepKeepsOutputsLegal : Obligations.StepKeepsOutputsLegal :=
  fun _ _ legal h =>
    step_keeps (fun _ _ hs => hs) (fun _ hs => hs) (fun _ _ _ => exec_keeps_outputsLegal) legal h

end Sys2Proof.Machine
end

section
/-! The stack's contract (60_exceptions.md R195): what it rules out is what faults. -/

namespace Sys2Proof.Machine

variable {s t : State} {i : Instr}

/-- A claim, a completion or any other effect but a fault leaves a legal transaction state. -/
theorem live_of_effect (h : Effect s i t) (live : Live s)
    (no_fault : ∀ rule c, ruleOf i = some rule → rule s ≠ .error c) : Live t := by
  obtain ⟨hfault, hrefused, legal⟩ := live
  cases h with
  | reset => exact ⟨rfl, rfl, by simp⟩
  | illegal _ _ state => exact absurd state legal
  | fault _ hrule error => exact absurd error (no_fault _ _ hrule)
  | decline => exact ⟨hfault, hrefused, by simp [declineSetup]⟩
  | claim => exact ⟨hfault, hrefused, by simp [claimSetup]⟩
  | stall => exact ⟨hfault, hrefused, by simp [stallData]⟩
  | complete => exact ⟨hfault, hrefused, by simp [submitReply]⟩
  | quiescent | laterConfig | firstConfig | early | online | battGood | frame =>
    exact ⟨hfault, hrefused, legal⟩

/-- With the pipe there and room in the counter a data stage completes. -/
theorem completeData_no_error (d : Payload) (pipe : s.pipeInit = true)
    (room : s.seqCnt = 2 ^ cntWidth s.params - 1 → s.params.cntOverflow = .wrap)
    (c : FaultCode) : completeData d s ≠ .error c := by
  rw [completeData_ok (inc_eq_nextCount room) pipe]
  exact nofun

theorem setupRule_no_error {p : SetupPacket} (idle : s.txnState ≠ .dataPending) (c : FaultCode) :
    setupRule p s ≠ .error c := by
  intro error
  obtain ⟨-, -, pending, -⟩ := setupRule_error error
  exact idle pending

/-- What the stack may send faults by no rule. -/
theorem rule_no_error_of_stackMay {rule : State → Except FaultCode State} (inv : BlockInv s)
    (may : stackMay s i = true)
    (room : s.seqCnt = 2 ^ cntWidth s.params - 1 → s.params.cntOverflow = .wrap)
    (hrule : ruleOf i = some rule) (c : FaultCode) : rule s ≠ .error c := by
  obtain ⟨-, -, flags, begun, -⟩ := inv
  cases i <;> simp only [ruleOf, reduceCtorEq, Option.some.injEq] at hrule <;> subst hrule
  case setupSig => exact setupRule_no_error (by simpa [stackMay] using may) c
  case setupOther => exact setupRule_no_error (by simpa [stackMay] using may) c
  case data len d =>
    simp only [stackMay, Bool.and_eq_true, beq_iff_eq, decide_eq_true_eq] at may
    obtain ⟨pending, short⟩ := may
    have pipe : s.pipeInit = true := flags ▸ begun (by simp [pending])
    intro error
    rcases dataRule_error error with ⟨-, idle⟩ | ⟨-, ⟨-, -, long⟩ | done⟩
    · exact idle pending
    · omega
    · exact completeData_no_error d pipe room c done
  all_goals exact nofun

/-- Settles O44: no rule faults on what the stack may send, the invariant giving the pipe. -/
theorem contractKeepsBlockAlive : Obligations.ContractKeepsBlockAlive :=
  fun _ _ _ inv live may room h =>
    live_of_effect (effect_of_exec h) live fun _ c hrule =>
      rule_no_error_of_stackMay inv may room hrule c

end Sys2Proof.Machine
end

section
/-! SUPPORT. Two states that agree on what the rules read are led by an event to states that are
related as the effects relate them. -/

namespace Sys2Proof.Machine

/-- The states agree on every element that an event reads, those apart that only frames, the receive
buffer and the trace come from. -/
structure ReadSame (a b : State) : Prop where
  seqCnt : a.seqCnt = b.seqCnt
  txnState : a.txnState = b.txnState
  registered : a.registered = b.registered
  pipeInit : a.pipeInit = b.pipeInit
  fault : a.fault = b.fault
  refused : a.refused = b.refused
  params : a.params = b.params

/-- Each effect but RESET's leads the two states to related ones. -/
structure EffectsRelate (R : State → State → Prop) (a b : State) : Prop where
  same : R a b
  fault : ∀ c, R (raiseFault c a) (raiseFault c b)
  config : R (firstConfig a) (firstConfig b)
  early : R (emit .respDeclined a) (emit .respDeclined b)
  decline : R (declineSetup a) (declineSetup b)
  claim : R (claimSetup a) (claimSetup b)
  stall : R (stallData a) (stallData b)
  complete : ∀ n d, R (submitReply (acknowledge (updateData n d a)))
    (submitReply (acknowledge (updateData n d b)))
  online : ∀ v, R (setSr (setOnline v a.sr) a) (setSr (setOnline v b.sr) b)
  battGood : ∀ g, R (setSr (setBatteryGood g a.sr) a) (setSr (setBatteryGood g b.sr) b)
  frame : R (emit (.tpFrame (serialize a.sr)) a) (emit (.tpFrame (serialize b.sr)) b)

variable {R : State → State → Prop} {a b : State} {i : Instr}

/-- Every rule gives the same fault, or the same effect on both states. -/
theorem rule_agree {rule : State → Except FaultCode State} (read : ReadSame a b)
    (eff : EffectsRelate R a b) (hrule : ruleOf i = some rule) : Agree R (rule a) (rule b) := by
  have setup : ∀ p, Agree R (setupRule p a) (setupRule p b) := fun p =>
    setupRule_agree p read.registered read.params read.txnState eff.early eff.claim eff.decline
  cases i <;> simp only [ruleOf, reduceCtorEq, Option.some.injEq] at hrule <;> subst hrule
  case config =>
    refine agree_ok ?_
    rw [read.registered]
    split
    · exact eff.same
    · exact eff.config
  case setupSig dir => exact setup (sigPacket dir)
  case setupOther p => exact setup p
  case data len d =>
    exact dataRule_agree len d d read.txnState read.pipeInit read.params read.seqCnt eff.stall
      fun n => eff.complete n d
  case tpSetOnline v => exact agree_ok (eff.online v)
  case tpSetBatteryGood g => exact agree_ok (eff.battGood g)
  case tpSerialize => exact agree_ok eff.frame

theorem exec_agree (read : ReadSame a b) (eff : EffectsRelate R a b) (ne : i ≠ .reset) :
    ∃ a' b', exec i a = .next a' ∧ exec i b = .next b' ∧ R a' b' := by
  obtain ⟨rule, hrule⟩ := ruleOf_of_ne_reset ne
  rw [exec_of_ruleOf hrule, exec_of_ruleOf hrule]
  exact runEvent_agree read.fault read.refused read.txnState eff.same eff.fault
    (rule_agree read eff hrule)

end Sys2Proof.Machine
end

section
/-! What reaches what: the register only the frames, the receive buffer and the earlier outputs
nothing. -/

namespace Sys2Proof.Machine

theorem exists_of_sameButRegister {a b : State} (h : SameButRegister a b) :
    ∃ r tr, b = { a with sr := r, trace := tr } ∧
      tr.map withoutFrame = a.trace.map withoutFrame := by
  obtain ⟨same, frames⟩ := h
  exact ⟨b.sr, b.trace, same, frames⟩

/-- Settles O15: every effect writes the same in both states, the register and the frames apart. -/
theorem registerReachesOnlyFrames : Obligations.RegisterReachesOnlyFrames := by
  intro i a b alike
  by_cases hr : i = .reset
  · subst hr
    obtain ⟨hb, -⟩ := alike
    exact ⟨_, _, rfl, rfl, by rw [hb]; rfl, rfl⟩
  obtain ⟨r, tr, rfl, frames⟩ := exists_of_sameButRegister alike
  refine exec_agree (by constructor <;> rfl) ?_ hr
  constructor
  case same => exact ⟨rfl, frames⟩
  all_goals
    intros
    refine ⟨rfl, ?_⟩
    simp [firstConfig_eq, claimSetup_eq, declineSetup_eq, stallData_eq, completed_state,
      withoutFrame, frames]

/-- Settles O28: no effect reads the receive buffer. -/
theorem receiveBufferIsNeverRead : Obligations.ReceiveBufferIsNeverRead := by
  intro i a b alike
  by_cases hr : i = .reset
  · subst hr
    exact ⟨_, _, rfl, rfl, by rw [alike]; rfl⟩
  obtain ⟨d, rfl⟩ : ∃ d, b = { a with rxBuf := d } := ⟨b.rxBuf, alike⟩
  refine exec_agree (by constructor <;> rfl) ?_ hr
  constructor <;> intros <;> rfl

/-- A pair of next states that append the same outputs to the traces `tr` and `tr'`, and agree
otherwise. -/
def SameOutputs (tr tr' : List OutEvent) (t u : State) : Prop :=
  ∃ outs, t.trace = tr ++ outs ∧ u = { t with trace := tr' ++ outs }

/-- Settles O43: every effect appends its outputs to whatever trace there is. -/
theorem earlierOutputsAreNeverRead : Obligations.EarlierOutputsAreNeverRead := by
  intro i s t tr ne h
  have related : EffectsRelate (SameOutputs s.trace tr) s { s with trace := tr } := by
    constructor
    case same => exact ⟨[], by simp⟩
    all_goals
      intros
      simp [SameOutputs, firstConfig_eq, claimSetup_eq, declineSetup_eq, stallData_eq,
        completed_state, raiseFault_eq, emit, setSr]
  obtain ⟨t', u, ht, hu, outs, htrace, rfl⟩ := exec_agree (by constructor <;> rfl) related ne
  obtain rfl : t = t' := by simpa [h] using ht
  rw [hu, htrace, List.drop_left]

end Sys2Proof.Machine
end

section
/-! SUPPORT. The decoder on operands (30_encoding.md R77, R82, R83): the bytes of a packet and of an
operand read back, what is read as an event, and what is refused. -/

namespace Sys2Proof

/-! ## SETUP packets -/

/-- A packet is read back from its eight bytes, whatever follows them (R71, R73). -/
theorem decodeSetup_bytes (p : SetupPacket) (rest : List Byte) :
    decodeSetup (p.bytes ++ rest) = .event (setupEvent p) rest := by
  obtain ⟨hdir, htype, hrecipient⟩ := requestType_fields p
  simp [SetupPacket.bytes, decodeSetup, decodePacket, hdir, htype, hrecipient]

theorem decodePacket_bytes (p0 p1 p2 p3 p4 p5 p6 p7 : Byte) :
    (decodePacket p0 p1 p2 p3 p4 p5 p6 p7).bytes = [p0, p1, p2, p3, p4, p5, p6, p7] := by
  simp [SetupPacket.bytes, decodePacket, SetupPacket.requestType, requestType_join]

theorem setupEvent_sigPacket (dir : BitVec 1) : setupEvent (sigPacket dir) = .setupSig dir := rfl

theorem encode_setupEvent (p : SetupPacket) : encode (setupEvent p) = tagSetup :: p.bytes := by
  unfold setupEvent
  split
  · rename_i fits; rw [encode, ← eq_sigPacket_of_fits fits]
  · rfl

theorem wellFormed_setupEvent (p : SetupPacket) : (setupEvent p).wellFormed = true := by
  unfold setupEvent
  split
  · rfl
  · rename_i other; simpa [Instr.wellFormed] using other

/-! ## What is read as an event -/

variable {i : Instr} {ops rest : List Byte}

theorem decodeConfig_eq_event (h : decodeConfig ops = .event i rest) :
    ∃ cfg, i = .config cfg ∧ ops = cfg :: rest := by
  unfold decodeConfig at h
  split at h <;> cases h
  exact ⟨_, rfl, rfl⟩

theorem decodeSetup_eq_event (h : decodeSetup ops = .event i rest) :
    ∃ p, i = setupEvent p ∧ ops = p.bytes ++ rest := by
  unfold decodeSetup at h
  split at h <;> cases h
  exact ⟨_, rfl, by rw [decodePacket_bytes]; rfl⟩

theorem decodeData_eq_event (h : decodeData ops = .event i rest) :
    ∃ len d, i = .data len d ∧ ops = [len, d.d0, d.d1, d.d2, d.d3] ++ rest := by
  unfold decodeData at h
  split at h <;> cases h
  exact ⟨_, _, rfl, rfl⟩

theorem decodeTp_eq_event {mk : Bool → Instr} (h : decodeTp mk ops = .event i rest) :
    ∃ v, i = mk v ∧ ops = tpValueByte v :: rest := by
  cases ops with
  | nil => cases h
  | cons b ops =>
    rw [decodeTp_cons] at h
    split_ifs at h with h0 h1 <;> cases h
    · exact ⟨false, rfl, by rw [h0]; rfl⟩
    · exact ⟨true, rfl, by rw [h1]; rfl⟩

/-! ## What is refused -/

/-- The reason of a refusal. -/
def Decoded.reason : Decoded → Option RefuseReason
  | .event _ _ => none
  | .refused r _ => some r

theorem exists_refused_iff {d : Decoded} {r : RefuseReason} :
    (∃ left, d = .refused r left) ↔ d.reason = some r := by
  cases d with
  | event => simp [Decoded.reason]
  | refused r' left => simp [Decoded.reason]

theorem reason_decodeConfig : ∀ ops : List Byte,
    (decodeConfig ops).reason = if ops.length + 1 < 2 then some .truncated else none
  | [] => rfl
  | _ :: _ => by simp [decodeConfig, Decoded.reason]

theorem reason_decodeSetup : ∀ ops : List Byte,
    (decodeSetup ops).reason = if ops.length + 1 < 9 then some .truncated else none
  | [] | [_] | [_, _] | [_, _, _] | [_, _, _, _] | [_, _, _, _, _] | [_, _, _, _, _, _]
  | [_, _, _, _, _, _, _] => rfl
  | _ :: _ :: _ :: _ :: _ :: _ :: _ :: _ :: _ => by simp [decodeSetup, Decoded.reason]

theorem reason_decodeData : ∀ ops : List Byte,
    (decodeData ops).reason = if ops.length + 1 < 6 then some .truncated else none
  | [] | [_] | [_, _] | [_, _, _] | [_, _, _, _] => rfl
  | _ :: _ :: _ :: _ :: _ :: _ => by simp [decodeData, Decoded.reason]

theorem decodeTp_of_bad {mk : Bool → Instr} {b : Byte} (bad : 1 < b.toNat) (rest : List Byte) :
    decodeTp mk (b :: rest) = .refused .badTpValue rest := by
  rw [decodeTp_cons, if_neg, if_neg] <;> rintro rfl <;> exact absurd bad (by decide)

theorem reason_decodeTp (mk : Bool → Instr) : ∀ ops : List Byte,
    (decodeTp mk ops).reason =
      if ops.length + 1 < 2 then some .truncated
      else if 1 < (ops.headD 0).toNat then some .badTpValue else none
  | [] => rfl
  | b :: rest => by
    rw [if_neg (by simp)]
    split
    · rename_i bad; exact congrArg Decoded.reason (decodeTp_of_bad (b := b) bad rest)
    · rename_i good; exact congrArg Decoded.reason (if_neg good)

/-! ## Refusals by the length that the tag fixes -/

theorem eventLength_eq_none_iff (t : Byte) :
    eventLength t = none ↔ (0x04 ≤ t.toNat ∧ t.toNat ≤ 0x0F) ∨ 0x13 ≤ t.toNat := by
  revert t; decide

/-- The table `need` of R83, row by row. -/
theorem eventLength_eq_some_iff (t : Byte) (n : Nat) :
    eventLength t = some n ↔
      (t, n) ∈ ([(0x00, 1), (0x01, 2), (0x02, 9), (0x03, 6), (0x10, 2), (0x11, 2), (0x12, 1)] :
        List (Byte × Nat)) := by
  simp only [List.mem_cons, List.not_mem_nil, or_false, Prod.mk.injEq]
  constructor
  · intro h
    unfold eventLength at h
    split_ifs at h with h0 h1 h2 h3 h4 h5 h6 <;> cases h <;> subst t <;> decide
  · rintro (⟨rfl, rfl⟩ | ⟨rfl, rfl⟩ | ⟨rfl, rfl⟩ | ⟨rfl, rfl⟩ | ⟨rfl, rfl⟩ | ⟨rfl, rfl⟩ |
      ⟨rfl, rfl⟩) <;> rfl

theorem reason_decode_of_unknown {t : Byte} (h : eventLength t = none) (ops : List Byte) :
    (decode (t :: ops)).reason = some .unknownTag := by
  unfold eventLength at h
  split_ifs at h with h0 h1 h2 h3 h4 h5 h6
  rw [decode_cons, if_neg h0, if_neg h1, if_neg h2, if_neg h3, if_neg h4, if_neg h5, if_neg h6]
  rfl

/-- A known tag: too short, a bad test-port value, or an event. -/
theorem reason_decode_of_known {t : Byte} {n : Nat} (h : eventLength t = some n)
    (ops : List Byte) :
    (decode (t :: ops)).reason =
      if ops.length + 1 < n then some .truncated
      else if (t = 0x10 ∨ t = 0x11) ∧ 1 < (ops.headD 0).toNat then some .badTpValue
      else none := by
  unfold eventLength at h
  split_ifs at h with h0 h1 h2 h3 h4 h5 h6 <;> cases h <;> subst t
  · rw [decode_reset]; simp [Decoded.reason, tagReset]
  · rw [decode_config, reason_decodeConfig]; simp [tagConfig]
  · rw [decode_setup, reason_decodeSetup]; simp [tagSetup]
  · rw [decode_data, reason_decodeData]; simp [tagData]
  · rw [decode_tpSetOnline, reason_decodeTp]; simp [tagTpSetOnline]
  · rw [decode_tpSetBatteryGood, reason_decodeTp]; simp [tagTpSetBatteryGood]
  · rw [decode_tpSerialize]; simp [Decoded.reason, tagTpSerialize]

theorem reason_decode_eq_unknownTag_iff (t : Byte) (ops : List Byte) :
    (decode (t :: ops)).reason = some .unknownTag ↔ eventLength t = none := by
  cases h : eventLength t with
  | none => simp [reason_decode_of_unknown h]
  | some n => rw [reason_decode_of_known h]; split_ifs <;> simp

theorem reason_decode_eq_truncated_iff (t : Byte) (ops : List Byte) :
    (decode (t :: ops)).reason = some .truncated ↔
      ∃ n, eventLength t = some n ∧ ops.length + 1 < n := by
  cases h : eventLength t with
  | none => simp [reason_decode_of_unknown h]
  | some n => rw [reason_decode_of_known h]; split_ifs <;> simp [*]

theorem reason_decode_eq_badTpValue_iff (t : Byte) (ops : List Byte) :
    (decode (t :: ops)).reason = some .badTpValue ↔
      ∃ v rest, ops = v :: rest ∧ (t = 0x10 ∨ t = 0x11) ∧ 1 < v.toNat := by
  constructor
  · intro h
    cases hlen : eventLength t with
    | none => simp [reason_decode_of_unknown hlen] at h
    | some n =>
      rw [reason_decode_of_known hlen] at h
      split_ifs at h with short bad
      · cases h
      · obtain ⟨tag, bad⟩ := bad
        cases ops with
        | nil => exact absurd bad (by decide)
        | cons v rest => exact ⟨v, rest, rfl, tag, bad⟩
  · rintro ⟨v, rest, rfl, tag, bad⟩
    have hlen : eventLength t = some 2 := by rcases tag with rfl | rfl <;> rfl
    rw [reason_decode_of_known hlen, if_neg (by simp), if_pos ⟨tag, bad⟩]

end Sys2Proof
end

section
/-! The statements of 30_encoding.md section 3 about input events. -/

namespace Sys2Proof

/-- Settles O48: each event's tag selects the decoder of its operands, which reads their bytes
back. -/
theorem decodeOfEncode : Obligations.DecodeOfEncode := by
  intro i rest wf
  cases i with
  | reset => exact decode_reset rest
  | config cfg => exact decode_config (cfg :: rest)
  | setupSig dir => exact decodeSetup_bytes (sigPacket dir) rest
  | setupOther p =>
    have other : p.fitsSignature = false := by simpa [Instr.wellFormed] using wf
    have named : setupEvent p = .setupOther p := by simp [setupEvent, other]
    have read := decodeSetup_bytes p rest
    rw [named] at read
    exact read
  | data len d => exact decode_data (len :: d.d0 :: d.d1 :: d.d2 :: d.d3 :: rest)
  | tpSetOnline v => exact decodeTpValue_byte .tpSetOnline v rest
  | tpSetBatteryGood g => exact decodeTpValue_byte .tpSetBatteryGood g rest
  | tpSerialize => exact decode_tpSerialize rest

/-- Settles O49: by the tag, each operand decoder reads nothing but the operands' one encoding. -/
theorem encodeOfDecode : Obligations.EncodeOfDecode := by
  intro bytes rest i h
  cases bytes with
  | nil => cases h
  | cons t ops =>
    rw [decode_cons] at h
    split_ifs at h with hreset hconfig hsetup hdata honline hbatt hserialize
    · cases h; subst hreset; exact ⟨rfl, rfl⟩
    · obtain ⟨cfg, rfl, rfl⟩ := decodeConfig_eq_event h; subst hconfig; exact ⟨rfl, rfl⟩
    · obtain ⟨p, rfl, rfl⟩ := decodeSetup_eq_event h
      subst hsetup
      exact ⟨wellFormed_setupEvent p, by rw [encode_setupEvent]; rfl⟩
    · obtain ⟨len, d, rfl, rfl⟩ := decodeData_eq_event h; subst hdata; exact ⟨rfl, rfl⟩
    · obtain ⟨v, rfl, rfl⟩ := decodeTp_eq_event h; subst honline; exact ⟨rfl, rfl⟩
    · obtain ⟨g, rfl, rfl⟩ := decodeTp_eq_event h; subst hbatt; exact ⟨rfl, rfl⟩
    · cases h; subst hserialize; exact ⟨rfl, rfl⟩

/-- Settles O50: the tag is unknown, or fixes a length that the bytes fall short of, or is a test-
port write's. -/
theorem decoderRefusesByName : Obligations.DecoderRefusesByName := by
  intro bytes
  simp only [exists_refused_iff]
  cases bytes with
  | nil => simp [decode, Decoded.reason]
  | cons t ops =>
    refine ⟨?_, ?_, ?_⟩
    · rw [reason_decode_eq_unknownTag_iff, eventLength_eq_none_iff]
      simp
    · rw [reason_decode_eq_truncated_iff]
      simp only [eventLength_eq_some_iff]
      simp [and_comm]
    · rw [reason_decode_eq_badTpValue_iff]
      simp

/-- Settles O51: the halves of each 16-bit field, and the sub-fields of bmRequestType, join and
split without loss. -/
theorem setupPacketBytesAndFieldsAgree : Obligations.SetupPacketBytesAndFieldsAgree := by
  refine ⟨fun p => ⟨_, _, _, _, _, _, _, _, rfl, ?_⟩, decodePacket_bytes⟩
  obtain ⟨hdir, htype, hrecipient⟩ := requestType_fields p
  simp [decodePacket, hdir, htype, hrecipient]

/-- Settles O52: the decoder computes. -/
theorem writtenOutWordsDecode : Obligations.WrittenOutWordsDecode := by
  unfold Obligations.WrittenOutWordsDecode
  decide

/-- Settles O58: the two test-port tags select one decoder, which takes the value byte alone. -/
theorem badTpValueLeavesTheNextEvent : Obligations.BadTpValueLeavesTheNextEvent := by
  rintro t b rest (rfl | rfl) bad
  · exact (decode_tpSetOnline _).trans (decodeTp_of_bad bad rest)
  · exact (decode_tpSetBatteryGood _).trans (decodeTp_of_bad bad rest)

/-- Settles O55: the line assembles to the bytes of the two events, byte for byte. -/
theorem txnLineIsSetupThenData : Obligations.TxnLineIsSetupThenData := by
  intro d
  rfl

end Sys2Proof
end

section
/-! SUPPORT. Output events read back from their bytes, and the signature as a masked word
(30_encoding.md R75, R81). -/

namespace Sys2Proof.Machine

/-! ## Output events -/

/-- The output event that a byte string encodes, if it is one of R81's. -/
def readOutput : List Byte → Option OutEvent
  | [0x80] => some .respClaimed
  | [0x81] => some .respDeclined
  | [0x82, n] => some (.armRx n)
  | [0x83] => some .statusAck
  | [0x84] => some .statusStall
  | [0x85, ep, n, b0, b1, b2, b3, b4, b5] => some (.txInt ep n ⟨b0, b1, b2, b3, b4, b5⟩)
  | [0x86] => some .ledToggle
  | [0x87] => some .regHandler
  | [0x88, ep, dir, mps] => some (.pipeInit ep dir mps)
  | [0x89, b0, b1, b2, b3, b4, b5] => some (.tpFrame ⟨b0, b1, b2, b3, b4, b5⟩)
  | [0x8F, code] => some (.fault (code.setWidth 3))
  | _ => none

theorem readOutput_outBytes (e : OutEvent) : readOutput (outBytes e) = some e := by
  cases e with
  | fault code =>
    have code_back : ∀ c : BitVec 3, (c.setWidth 8).setWidth 3 = c := by decide
    exact congrArg (fun c => some (OutEvent.fault c)) (code_back code)
  | _ => rfl

/-! ## The masked word -/

/-- The bits that MASK leaves of the direction. -/
def maskedDir : MatchDir → BitVec 1 → BitVec 1
  | .ignore, _ => 0
  | .hostToDevice, dir => dir

theorem and_maskedDir (md : MatchDir) (dir : BitVec 1) :
    dir &&& maskedDir md 1 = maskedDir md dir := by
  revert dir; cases md <;> decide

theorem maskedDir_eq_zero_iff (md : MatchDir) (dir : BitVec 1) :
    maskedDir md dir = 0 ↔ (md = .hostToDevice → dir = 0) := by
  cases md <;> simp [maskedDir]

/-- Every compared field is the signature's (R74, R129). -/
theorem sigMatch_iff (md : MatchDir) (p : SetupPacket) :
    sigMatch md p = true ↔
      p.recipient = 1 ∧ p.reqType = 1 ∧ p.request = 0x09 ∧ p.value = 0x0200 ∧ p.index = 0x0000 ∧
        p.length = 4 ∧ (md = .hostToDevice → p.dir = 0) := by
  cases md <;>
    simp [sigMatch, SetupPacket.fitsSignature, sigRecipient, sigType, sigRequest, sigValue,
      sigIndex, sigLength, and_assoc]

/-- MASK as the fields of a packet. -/
theorem setupMask_eq (md : MatchDir) :
    setupMask md = BitVec.allOnes 16 ++ (BitVec.allOnes 16 ++ (BitVec.allOnes 16 ++
      (BitVec.allOnes 8 ++ (maskedDir md 1 ++ (BitVec.allOnes 2 ++ BitVec.allOnes 5))))) := by
  cases md <;> decide

theorem setupMatch_eq : setupMatch = leWord64 (sigPacket 0).bytes := by decide

/-- MASK clears the direction bit, or nothing. -/
theorem leWord64_and_setupMask (md : MatchDir) (p : SetupPacket) :
    leWord64 p.bytes &&& setupMask md = leWord64 { p with dir := maskedDir md p.dir }.bytes := by
  rw [leWord64_bytes, leWord64_bytes, setupMask_eq]
  refine BitVec.and_append.trans ?_
  rw [BitVec.and_append, BitVec.and_append, BitVec.and_append, BitVec.and_append, BitVec.and_append]
  simp only [BitVec.and_allOnes, and_maskedDir]

theorem bitVec_append_inj {n m : Nat} {a a' : BitVec n} {b b' : BitVec m} (h : a ++ b = a' ++ b') :
    a = a' ∧ b = b' := by
  constructor
  · simpa [BitVec.extractLsb'_append_eq_left] using congrArg (BitVec.extractLsb' m n) h
  · simpa [BitVec.extractLsb'_append_eq_right] using congrArg (BitVec.extractLsb' 0 m) h

theorem leWord64_bytes_injective {p q : SetupPacket} (h : leWord64 p.bytes = leWord64 q.bytes) :
    p = q := by
  rw [leWord64_bytes, leWord64_bytes] at h
  obtain ⟨hlength, h⟩ := bitVec_append_inj h
  obtain ⟨hindex, h⟩ := bitVec_append_inj h
  obtain ⟨hvalue, h⟩ := bitVec_append_inj h
  obtain ⟨hrequest, h⟩ := bitVec_append_inj h
  obtain ⟨hdir, h⟩ := bitVec_append_inj h
  obtain ⟨htype, hrecipient⟩ := bitVec_append_inj h
  obtain ⟨⟩ := p
  simp_all

end Sys2Proof.Machine
end

section
/-! The statements of 30_encoding.md about output events and the signature. -/

namespace Sys2Proof.Machine

/-- Settles O53: the reader of output events inverts their encoding. -/
theorem outputBytesDetermineEvent : Obligations.OutputBytesDetermineEvent := by
  constructor
  · intro e e' same
    have read := congrArg readOutput same
    rw [readOutput_outBytes, readOutput_outBytes] at read
    exact Option.some.inj read
  · intro e
    cases e <;> exact ⟨_, _, rfl, by decide, by decide⟩

/-- Settles O22: the masked word is the word of the packet with its direction masked, and a word
determines its packet. -/
theorem signatureIsMaskedWord : Obligations.SignatureIsMaskedWord := by
  intro md p
  have same_packet : leWord64 p.bytes &&& setupMask md = setupMatch ↔
      { p with dir := maskedDir md p.dir } = sigPacket 0 := by
    rw [leWord64_and_setupMask, setupMatch_eq]
    exact ⟨leWord64_bytes_injective, fun h => by rw [h]⟩
  rw [same_packet, sigMatch_iff, sigPacket, SetupPacket.mk.injEq, maskedDir_eq_zero_iff]
  simp only [sigRecipient, sigType, sigRequest, sigValue, sigIndex, sigLength]
  tauto

end Sys2Proof.Machine
end

section
/-! The answers of the events, outcome by outcome (41_control_transfer.md sections 2 to 5,
40_status_register.md, 60_exceptions.md section 1). -/

namespace Sys2Proof.Machine

/-! ## Dispatch and RESET -/

/-- Settles O37: the dispatch's first check. -/
theorem markedBlockIsQuiescent : Obligations.MarkedBlockIsQuiescent := by
  intro i s ne marked
  obtain ⟨rule, hrule⟩ := ruleOf_of_ne_reset ne
  rw [exec_of_ruleOf hrule, runEvent_of_quiescent (by simpa [quiescent] using marked)]

/-- Settles O38: the dispatch's second check. -/
theorem illegalStateFaults : Obligations.IllegalStateFaults := by
  intro i s ne unfaulted unrefused illegal
  obtain ⟨rule, hrule⟩ := ruleOf_of_ne_reset ne
  rw [exec_of_ruleOf hrule,
    runEvent_of_illegal (quiescent_eq_false.2 ⟨unfaulted, unrefused⟩) illegal]
  rfl

theorem serialize_cleared : serialize ⟨false, false⟩ = ⟨0, 0, 0, 0, 0, 0⟩ := by decide

theorem hasResetValues_resetBlock (s : State) : HasResetValues (resetBlock s) :=
  ⟨serialize_cleared, rfl, rfl, rfl, rfl, rfl, rfl, rfl⟩

theorem live_resetBlock (s : State) : Live (resetBlock s) := ⟨rfl, rfl, nofun⟩

/-- Settles O1: RESET passes by the dispatch; the block it leaves takes the TP_SERIALIZE. -/
theorem resetGivesResetValues : Obligations.ResetGivesResetValues := by
  refine ⟨⟨serialize_cleared, rfl, rfl, rfl, rfl, rfl, rfl, rfl⟩, decode_reset, fun s => ?_⟩
  have serialized := exec_tpSerialize_of_live (live_resetBlock s)
  rw [resetBlock_sr, serialize_cleared] at serialized
  exact ⟨resetBlock s, exec_reset s, hasResetValues_resetBlock s, rfl, exec_reset _, _,
    serialized, rfl⟩

/-- Settles O2: RESET writes neither the deliveries, the parameters nor the numbering. -/
theorem resetRevivesAndKeepsEnvironment : Obligations.ResetRevivesAndKeepsEnvironment := by
  intro s t h
  rw [exec_reset] at h
  cases h
  exact ⟨live_resetBlock s, rfl, rfl, rfl⟩

/-! ## Test port -/

/-- A write of a flag by its event, on a block that takes events. -/
def FlagWrite.apply : FlagWrite → StatusReg → StatusReg
  | .online v => setOnline v
  | .battGood g => setBatteryGood g

variable {s : State}

theorem exec_flagWrite_of_live (w : FlagWrite) (live : Live s) :
    exec w.event s = .next (setSr (w.apply s.sr) s) := by
  cases w with
  | online v => exact exec_tpSetOnline_of_live v live
  | battGood g => exact exec_tpSetBatteryGood_of_live g live

theorem apply_onLine (w : FlagWrite) (r : StatusReg) :
    (w.apply r).onLine = w.onLine?.getD r.onLine := by
  cases w <;> rfl

theorem apply_batteryGood (w : FlagWrite) (r : StatusReg) :
    (w.apply r).batteryGood = w.batteryGood?.getD r.batteryGood := by
  cases w <;> rfl

/-- The last value of a list begun by a write that may be none. -/
theorem getLast?_filterMap_cons {α β : Type} (f : α → Option β) (a : α) (as : List α) (b : β) :
    (((a :: as).filterMap f).getLast?).getD b =
      ((as.filterMap f).getLast?).getD ((f a).getD b) := by
  rw [List.filterMap_cons]
  cases f a with
  | none => rfl
  | some c => simp [List.getLast?_cons]

/-- Settles O14, by induction on the writes: the first one gives the register that the others
find. -/
theorem flagsReadBackTheirLastWrites : Obligations.FlagsReadBackTheirLastWrites := by
  intro ws
  induction ws with
  | nil => exact fun s _ => ⟨s, rfl, rfl, rfl, rfl⟩
  | cons w ws ih =>
    intro s live
    obtain ⟨t, run, same, hon, hbatt⟩ := ih (setSr (w.apply s.sr) s) live
    refine ⟨t, ?_, same, ?_, ?_⟩
    · rw [List.map_cons, runEvents, exec_flagWrite_of_live w live]; exact run
    · rw [getLast?_filterMap_cons, ← apply_onLine]; exact hon
    · rw [getLast?_filterMap_cons, ← apply_batteryGood]; exact hbatt

/-! ## CONFIG -/

theorem exec_config_of_live (cfg : Byte) (live : Live s) :
    exec (.config cfg) s = .next (if s.registered = true then s else firstConfig s) := by
  rw [exec_of_ruleOf (i := .config cfg) rfl, runEvent_of_live live]; rfl

/-- Settles O16: CONFIG's rule, whose first effect is read as one record. -/
theorem configRegistersOnce : Obligations.ConfigRegistersOnce := by
  intro s cfg live
  rw [exec_config_of_live cfg live, firstConfig_eq]

/-- Settles O54: the announcement of the first CONFIG. -/
theorem pipeIsTheIdentitysEndpoint : Obligations.PipeIsTheIdentitysEndpoint := by
  refine ⟨rfl, rfl, fun s t cfg live hreg h => ?_⟩
  rw [exec_config_of_live cfg live, if_neg (by simp [hreg]), firstConfig_eq] at h
  cases h
  exact ⟨1, 1, 32, by simp, rfl, rfl⟩

/-! ## SETUP -/

theorem exec_setupEvent_of_live (p : SetupPacket) (live : Live s) :
    exec (setupEvent p) s = .next (commit s (setupRule p s)) := by
  rw [exec_setupEvent, runEvent_of_live live]

/-- The two branches of R124 in a registered block. -/
theorem exec_setupEvent_of_allowed (p : SetupPacket) (live : Live s) (hreg : s.registered = true)
    (allowed : SetupAllowed s) :
    exec (setupEvent p) s =
      .next (if sigMatch s.params.matchDir p = true then claimSetup s else declineSetup s) := by
  rw [exec_setupEvent_of_live p live, setupRule_of_allowed hreg allowed]; rfl

/-- Settles O59: one rule runs under either name. -/
theorem twoNamesOfOneSetup : Obligations.TwoNamesOfOneSetup := by
  intro p s
  rw [exec_setupEvent, exec_of_ruleOf (i := .setupOther p) rfl]

theorem sigMatch_sigPacket {md : MatchDir} {dir : BitVec 1} (h : md = .ignore ∨ dir = 0) :
    sigMatch md (sigPacket dir) = true := by
  rw [sigMatch_iff]
  refine ⟨rfl, rfl, rfl, rfl, rfl, rfl, fun checked => ?_⟩
  exact h.resolve_left (by simp [checked])

theorem exec_setupSig_claims {dir : BitVec 1} (live : Live s) (hreg : s.registered = true)
    (allowed : SetupAllowed s) (h : s.params.matchDir = .ignore ∨ dir = 0) :
    exec (.setupSig dir) s = .next (claimSetup s) := by
  rw [← setupEvent_sigPacket, exec_setupEvent_of_allowed _ live hreg allowed,
    if_pos (sigMatch_sigPacket h)]

/-- Settles O17: the claiming branch, read as one record. -/
theorem signatureSetupIsClaimed : Obligations.SignatureSetupIsClaimed := by
  intro s dir live hreg allowed h
  rw [exec_setupSig_claims live hreg allowed h, claimSetup_eq]

/-- Settles O19: R126's branch. -/
theorem setupBeforeConfigIsDeclined : Obligations.SetupBeforeConfigIsDeclined := by
  intro s p live hreg
  rw [exec_setupEvent_of_live p live, setupRule, if_pos hreg]
  rfl

/-- Settles O20: R127's branch. -/
theorem setupWhilePendingFaults : Obligations.SetupWhilePendingFaults := by
  intro s p live hreg pending policy
  rw [exec_setupEvent_of_live p live, setupRule, if_neg (by simp [hreg]),
    if_pos ⟨pending, policy⟩]
  rfl

/-- Settles O21: RESP_CLAIMED is an output of the claiming branch alone, which the comparison of the
fields selects. -/
theorem claimIffEveryFieldMatches : Obligations.ClaimIffEveryFieldMatches := by
  intro s t p live hreg idle h
  rw [exec_setupEvent_of_allowed p live hreg (fun pending => absurd pending idle)] at h
  cases h
  rw [← sigMatch_iff]
  split
  · rename_i fits; simp [fits, claimSetup_eq]
  · rename_i other; simp [other, declineSetup_eq]

/-! ## DATA -/

theorem exec_data_of_live (len : Byte) (d : Payload) (live : Live s) :
    exec (.data len d) s = .next (commit s (dataRule len d s)) := by
  rw [exec_of_ruleOf (i := .data len d) rfl, runEvent_of_live live]

theorem dataRule_of_stalled {len : Byte} (d : Payload) (pending : s.txnState = .dataPending)
    (other : len ≠ rxLen) (mode : s.params.lenCheck = .on) :
    dataRule len d s = .ok (stallData s) := by
  rw [dataRule, if_neg (not_not_intro pending), if_neg other, mode]

theorem dataRule_of_overrun {len : Byte} (d : Payload) (pending : s.txnState = .dataPending)
    (long : rxLen.toNat < len.toNat) (mode : s.params.lenCheck = .off) :
    dataRule len d s = .error .dataOverrun := by
  have other : len ≠ rxLen := by rintro rfl; omega
  rw [dataRule, if_neg (not_not_intro pending), if_neg other, mode]
  exact if_pos long

theorem completeData_of_overflow (d : Payload)
    (overflow : inc s.params s.seqCnt = .error .cntOverflow) :
    completeData d s = .error .cntOverflow := by
  rw [completeData, overflow]

theorem completeData_of_no_pipe (d : Payload) {n : Nat} (count : inc s.params s.seqCnt = .ok n)
    (absent : s.pipeInit = false) : completeData d s = .error .txPipeUninit := by
  rw [completeData, count]
  exact if_pos absent

/-- Settles O25: R133's branch. -/
theorem unsolicitedDataFaults : Obligations.UnsolicitedDataFaults := by
  intro s len d live idle
  rw [exec_data_of_live len d live, dataRule, if_pos idle]
  rfl

/-- Settles O24: R132's branches, the short data stage being accepted like one of four bytes. -/
theorem wrongLengthIsStalledOrOverruns : Obligations.WrongLengthIsStalledOrOverruns := by
  intro s len d live pending other
  rw [exec_data_of_live len d live]
  cases mode : s.params.lenCheck with
  | on => rw [dataRule_of_stalled d pending other mode]; rfl
  | off =>
    by_cases long : 4 < len.toNat
    · rw [dataRule_of_overrun d pending long mode]
      exact (if_pos long).symm
    · have short : len.toNat < 4 := by bv_omega
      rw [dataRule_of_accepted d pending (.inr ⟨mode, short⟩),
        ← dataRule_of_accepted (len := 4) d pending (.inl rfl), ← exec_data_of_live 4 d live]
      exact (if_neg long).symm

/-- Settles O26: of the completion's two checks the counter's comes first. -/
theorem counterTopFaultsBeforeMissingPipe : Obligations.CounterTopFaultsBeforeMissingPipe := by
  intro s d live pending
  rw [exec_data_of_live 4 d live, dataRule_of_accepted d pending (.inl rfl)]
  refine ⟨fun top policy => ?_, fun room absent => ?_⟩
  · have overflow : inc s.params s.seqCnt = .error .cntOverflow := by
      rw [top]; exact inc_top_fault policy
    rw [completeData_of_overflow d overflow]; rfl
  · rw [completeData_of_no_pipe d (inc_eq_nextCount room) absent]; rfl

/-- Settles O27: the payload is read by the effect on the receive buffer alone. -/
theorem payloadIsNeverInspected : Obligations.PayloadIsNeverInspected := by
  intro s len d d'
  rw [exec_of_ruleOf (i := .data len d) rfl, exec_of_ruleOf (i := .data len d') rfl]
  exact runEvent_agree rfl rfl rfl rfl (fun _ => rfl)
    (dataRule_agree len d d' rfl rfl rfl rfl rfl fun _ => rfl)

/-- Settles O30: the claim leaves a data stage that completes. -/
theorem transactionEndsInItsReply : Obligations.TransactionEndsInItsReply := by
  intro s d live hreg pipe idle below
  have claim : exec (.setupSig 0) s = .next (claimSetup s) :=
    exec_setupSig_claims live hreg (fun pending => absurd pending idle) (.inr rfl)
  have completes : DataCompletes 4 (claimSetup s) := by
    obtain ⟨unfaulted, unrefused, -⟩ := live
    exact ⟨⟨unfaulted, unrefused, nofun⟩, rfl, pipe, .inl rfl, fun top => absurd top below⟩
  have done := exec_data_of_completes d completes
  rw [completed_state] at done
  refine ⟨_, by simp only [runEvents, claim, done]; rfl, ?_⟩
  exact ⟨rfl, if_neg below, rfl, by simp [claimSetup_eq, replyOutputs]⟩

end Sys2Proof.Machine
end

section
/-! What an event may change, and what its change says about it (10_state.md section 3, 20_memory.md
section 3, 42_demo_schedule.md, 60_exceptions.md section 1): each by the event's effect. -/

namespace Sys2Proof.Machine

/-- Settles O42: the outputs of an event are appended. -/
theorem traceOnlyGrows : Obligations.TraceOnlyGrows := by
  intro i s t ne h
  obtain ⟨outs, htrace⟩ := trace_of_exec ne h
  exact ⟨outs, htrace.symm⟩

/-- Settles O40: no effect but RESET's clears a mark, and a fault is raised on an unmarked block
only. -/
theorem onlyResetClearsMarks : Obligations.OnlyResetClearsMarks := by
  intro i s t ne h
  cases effect_of_exec h with
  | reset => exact absurd rfl ne
  | illegal _ unmarked =>
    obtain ⟨unfaulted, -⟩ := quiescent_eq_false.1 unmarked
    exact ⟨rfl, fun faulted => by simp [unfaulted] at faulted⟩
  | fault live =>
    obtain ⟨unfaulted, -⟩ := live
    exact ⟨rfl, fun faulted => by simp [unfaulted] at faulted⟩
  | quiescent | laterConfig | firstConfig | early | decline | claim | stall | complete | online
  | battGood | frame => exact ⟨rfl, fun faulted => ⟨faulted, rfl⟩⟩

/-- Settles O39: of the effects only a fault marks the block, and it does nothing else. -/
theorem faultsArePrecise : Obligations.FaultsArePrecise := by
  intro i s t h unfaulted faulted
  cases effect_of_exec h with
  | illegal | fault =>
    obtain ⟨low, high⟩ := faultBits_range _
    exact ⟨_, low, high, raiseFault_eq s _⟩
  | reset => cases faulted
  | quiescent | laterConfig | firstConfig | early | decline | claim | stall | complete | online
  | battGood | frame => exact absurd (unfaulted.symm.trans faulted) nofun

/-- Settles O36: the counter is written by RESET and by a completed data stage. -/
theorem onlyCompletedTransactionsCount : Obligations.OnlyCompletedTransactionsCount := by
  intro i s t ne h moved
  cases effect_of_exec h with
  | reset => exact absurd rfl ne
  | complete len d n live pending accepted count =>
    exact ⟨len, d, rfl, accepted, pending, rfl, by rw [completed_state]; rfl⟩
  | quiescent | illegal | fault | laterConfig | firstConfig | early | decline | claim | stall
  | online | battGood | frame => exact absurd rfl moved

/-- Settles O56: the other effects append no configuration output. -/
theorem onlyFirstConfigAnnounces : Obligations.OnlyFirstConfigAnnounces := by
  intro i s t h announces
  cases effect_of_exec h with
  | firstConfig cfg live hreg => exact ⟨live, hreg, cfg, rfl⟩
  | reset | quiescent | illegal | fault | laterConfig | early | decline | claim | stall | complete
  | online | battGood | frame =>
    simp [claimSetup_eq, declineSetup_eq, stallData_eq, completed_state, isConfigOutput]
      at announces

theorem exists_of_isSetup {i : Instr} (h : isSetup i = true) :
    (∃ dir, i = .setupSig dir) ∨ ∃ p, i = .setupOther p := by
  cases i with
  | setupSig dir => exact .inl ⟨dir, rfl⟩
  | setupOther p => exact .inr ⟨p, rfl⟩
  | reset | config | data | tpSetOnline | tpSetBatteryGood | tpSerialize => cases h

theorem step_of_no_input {s : State} (h : s.input = []) : step s = .next s := by
  rw [step, fetch_idle h]

theorem run_of_no_input {s : State} (h : s.input = []) (k : Nat) : core.run k s = .next s := by
  induction k with
  | zero => rfl
  | succ k ih => simp [Host.Core.run, Host.Check.core_step, step_of_no_input h, ih]

/-- Settles O29: of the effects that write the transaction state, a SETUP's need the leave of
R127. -/
theorem pendingTransactionHasNoTimeout : Obligations.PendingTransactionHasNoTimeout := by
  refine ⟨fun i s t pending h left => ?_, fun s k _ idle => run_of_no_input idle k⟩
  cases effect_of_exec h with
  | reset => exact .inl rfl
  | stall len d | complete len d => exact .inr (.inl ⟨len, d, rfl⟩)
  | decline setup _ _ allowed => exact .inr (.inr ⟨exists_of_isSetup setup, allowed pending⟩)
  | claim => exact absurd rfl left
  | quiescent | illegal | fault | laterConfig | firstConfig | early | online | battGood | frame =>
    exact absurd pending left

/-! ## The table of access rights -/

theorem keeps_refl (e : Element) (s : State) : keeps e s s := by
  cases e <;> simp [keeps]

theorem keeps_raiseFault {e : Element} (h : e ≠ .faultMarks) (c : FaultCode) (s : State) :
    keeps e s (raiseFault c s) := by
  cases e <;> simp_all [keeps]

/-- Both names of SETUP, and DATA, may write the fault marks: they have faults of their own. -/
theorem mayWrite_faultMarks_of_error {i : Instr} {rule : State → Except FaultCode State} {s : State}
    {c : FaultCode} (hrule : ruleOf i = some rule) (error : rule s = .error c) :
    mayWrite .faultMarks i = true := by
  rcases isSetup_or_data_of_error hrule error with setup | ⟨len, d, rfl⟩
  · rcases exists_of_isSetup setup with ⟨dir, rfl⟩ | ⟨p, rfl⟩ <;> rfl
  · rfl

theorem mayWrite_of_isSetup {i : Instr} (setup : isSetup i = true) (e : Element) :
    mayWrite e i = (e == .txnState || e == .rxBuf || e == .faultMarks) := by
  rcases exists_of_isSetup setup with ⟨dir, rfl⟩ | ⟨p, rfl⟩ <;> cases e <;> rfl

/-- An element without a write in the event's column keeps its value. -/
theorem keeps_of_effect {i : Instr} {s t : State} {e : Element} (h : Effect s i t)
    (no_write : mayWrite e i = false) (legal : e = .faultMarks → s.txnState ≠ .illegal) :
    keeps e s t := by
  cases h with
  | quiescent | laterConfig => exact keeps_refl e s
  | illegal _ _ state => exact keeps_raiseFault (fun he => legal he state) _ s
  | fault _ hrule error =>
    refine keeps_raiseFault ?_ _ s
    rintro rfl
    simp [mayWrite_faultMarks_of_error hrule error] at no_write
  | early setup | decline setup | claim setup =>
    rw [mayWrite_of_isSetup setup] at no_write
    cases e <;> simp_all [keeps, declineSetup, claimSetup]
  | reset | firstConfig | stall | complete | online | battGood | frame =>
    cases e <;>
      simp_all [mayWrite, keeps, firstConfig, stallData, submitReply, acknowledge, updateData]

/-- Settles O41: no effect writes outside the columns of its event, the deliveries or the
parameters. -/
theorem eventsWriteOnlyTheirElements : Obligations.EventsWriteOnlyTheirElements := by
  intro i s t h
  have effect := effect_of_exec h
  refine ⟨fun e => keeps_of_effect effect, ?_⟩
  cases effect with
  | reset => exact ⟨rfl, rfl, fun ne => absurd rfl ne⟩
  | quiescent | illegal | fault | laterConfig | firstConfig | early | decline | claim | stall
  | complete | online | battGood | frame => exact ⟨rfl, rfl, fun _ => rfl⟩

end Sys2Proof.Machine
end

section
/-! A step and a run (30_encoding.md R83, 60_exceptions.md R190, R196). -/

namespace Sys2Proof.Machine

theorem requeue_eq (rest : List Byte) (q : List (List Byte)) :
    requeue rest q = if rest = [] then q else rest :: q := by
  cases rest <;> rfl

/-- Settles O45: the block takes the event's bytes, then runs it. -/
theorem stepRunsDecodedEvent : Obligations.StepRunsDecodedEvent := by
  intro s bytes rest q i hinput hdecode
  rw [step, fetch_event hinput hdecode, requeue_eq]
  rfl

/-- Settles O46: the block takes the refused bytes, and sets the mark. -/
theorem stepRefusesWhatIsNoEvent : Obligations.StepRefusesWhatIsNoEvent := by
  intro s bytes rest q r hinput hdecode
  rw [step, fetch_refused hinput hdecode, requeue_eq]
  rfl

theorem exec_next (i : Instr) (s : State) : ∃ t, exec i s = .next t := by
  by_cases hr : i = .reset
  · exact ⟨_, hr ▸ exec_reset s⟩
  · obtain ⟨rule, hrule⟩ := ruleOf_of_ne_reset hr
    rw [exec_of_ruleOf hrule]
    exact runEvent_next rule s

/-- Settles O47: the three things a step can be all have a next state. -/
theorem everyStepHasANextState : Obligations.EveryStepHasANextState := by
  refine fun s => ⟨?_, step_of_no_input⟩
  unfold step
  cases fetch s with
  | idle => exact ⟨s, rfl⟩
  | event i t => exact exec_next i t
  | refused r t => exact ⟨_, rfl⟩

/-- A marked block stays marked by every event but RESET. -/
theorem marked_of_exec {i : Instr} {s t : State} (ne : i ≠ .reset) (h : exec i s = .next t)
    (marked : s.fault = true ∨ s.refused = true) : t.fault = true ∨ t.refused = true := by
  rw [markedBlockIsQuiescent i s ne marked] at h
  cases h
  exact marked

theorem not_endsWell_of_marked {t : State} (marked : t.fault = true ∨ t.refused = true) :
    ¬ EndsWell t := by
  rintro ⟨-, unfaulted, unrefused, -⟩
  simp [unfaulted, unrefused] at marked

/-- What a step finds and does at the end of a run, and before it. -/
theorem step_at_runEnd {s t : State} (h : step s = .next t) :
    (runEnds s = true ∧ ((s.input = [] ∧ t = s) ∨ ∃ q, t = resetBlock (setInput q s))) ∨
    (runEnds s = false ∧
      ((∃ i q, i ≠ .reset ∧ exec i (setInput q s) = .next t) ∨
        ∃ q, t = setRefused (setInput q s))) := by
  unfold step at h
  cases hi : s.input with
  | nil => rw [fetch_idle hi] at h; cases h; exact .inl ⟨runEnds_idle hi, .inl ⟨rfl, rfl⟩⟩
  | cons bytes q =>
    cases hd : decode bytes with
    | event i rest =>
      rw [fetch_event hi hd] at h
      by_cases hr : i = .reset
      · subst hr
        cases h
        exact .inl ⟨runEnds_event hi hd, .inr ⟨_, rfl⟩⟩
      · exact .inr ⟨by rw [runEnds_event hi hd]; simpa using hr, .inl ⟨i, _, hr, h⟩⟩
    | refused r rest =>
      rw [fetch_refused hi hd] at h
      cases h
      exact .inr ⟨runEnds_refused hi hd, .inr ⟨_, rfl⟩⟩

/-- Settles O60: by what a step does at a run's end and before it. -/
theorem runEndsAtInputEndOrNextReset : Obligations.RunEndsAtInputEndOrNextReset := by
  intro s t h
  rcases step_at_runEnd h with ⟨ends, wait | ⟨q, rfl⟩⟩ | ⟨goes_on, ⟨i, q, ne, h⟩ | ⟨q, rfl⟩⟩
  · rw [ends]
    exact ⟨fun _ => .inl wait, nofun⟩
  · rw [ends]
    exact ⟨fun _ => .inr ⟨hasResetValues_resetBlock _, rfl⟩, nofun⟩
  · rw [goes_on]
    exact ⟨nofun, fun _ => ⟨traceOnlyGrows i (setInput q s) t ne h,
      fun marked => not_endsWell_of_marked (marked_of_exec ne h marked)⟩⟩
  · rw [goes_on]
    exact ⟨nofun, fun _ => ⟨⟨[], List.append_nil _⟩,
      fun _ => not_endsWell_of_marked (.inr rfl)⟩⟩

end Sys2Proof.Machine
end

section
/-! Runs from power-on, the counter's increment and the register's places (10_state.md sections 2
and 3, 42_demo_schedule.md). -/

namespace Sys2Proof.Machine

/-- Settles O3: at power-on the trace is empty, the counter 0 and the block unregistered. -/
theorem invariantsHoldAtPowerOn : Obligations.InvariantsHoldAtPowerOn := fun _ =>
  ⟨⟨nofun, Nat.two_pow_pos _, rfl, fun begun => absurd rfl begun, ⟨fun _ => rfl, fun _ => rfl⟩,
      nofun, nofun, nofun⟩,
    ⟨(Nat.zero_mod _).symm, rfl, rfl⟩, ⟨rfl, Nat.two_pow_pos _⟩, rfl, rfl, Nat.le_refl _, rfl⟩

/-- What every event of a sequence keeps, the sequence keeps. -/
theorem runEvents_keeps {P : State → Prop} {ok : Instr → Prop}
    (event : ∀ i s t, ok i → P s → exec i s = .next t → P t) {es : List Instr} {s t : State}
    (hok : ∀ i ∈ es, ok i) (hs : P s) (h : runEvents es s = .next t) : P t := by
  induction es generalizing s with
  | nil => cases h; exact hs
  | cons i es ih =>
    obtain ⟨hi, hes⟩ := List.forall_mem_cons.1 hok
    obtain ⟨u, hu⟩ := exec_next i s
    rw [runEvents, hu] at h
    exact ih hes (event i s u hi hs hu) h

/-- In a run from power-on without test-port writes the counter and the flags are those of the
number of completed transactions, as long as it is below 64. -/
theorem powerOn_run_follows {p : Params} {es : List Instr} {t : State}
    (deployed : ∀ i ∈ es, isTestWrite i = false) (h : runEvents es (powerOn p) = .next t)
    (few : completed t < 64) : t.seqCnt = completed t ∧ t.sr = trajectory (completed t) := by
  obtain ⟨-, counts0, on0, -⟩ := invariantsHoldAtPowerOn p
  obtain ⟨⟨count, -, -⟩, flags, -⟩ : CountsTransactions t ∧ OnTrajectory t :=
    runEvents_keeps (P := fun s => CountsTransactions s ∧ OnTrajectory s)
      (fun _ _ _ hi ⟨counts, on⟩ h =>
        ⟨exec_keeps_countsTransactions counts h, exec_keeps_onTrajectory hi on h⟩)
      deployed ⟨counts0, on0⟩ h
  have wide := cntWidth_ge t.params
  rw [Nat.mod_eq_of_lt (by omega)] at count
  exact ⟨count, count ▸ flags⟩

/-- Settles O34: the five checkpoints are places of the trajectory. -/
theorem scheduleCheckpoints : Obligations.ScheduleCheckpoints := by
  intro p es t deployed h
  have follows : ∀ n, n < 64 → completed t = n → t.sr = trajectory n ∧ t.seqCnt = n := by
    rintro n few rfl
    obtain ⟨count, flags⟩ := powerOn_run_follows deployed h few
    exact ⟨flags, count⟩
  refine ⟨fun hn => ?_, fun hn => ?_, fun hn => ?_, fun hn => ?_, fun hn => ?_⟩ <;>
    obtain ⟨flags, count⟩ := follows _ (by decide) hn <;> rw [flags, count]
  · exact ⟨rfl, rfl, rfl⟩
  · exact ⟨rfl, rfl⟩
  · exact ⟨rfl, rfl⟩
  · exact ⟨rfl, rfl⟩
  · exact ⟨rfl, rfl, rfl⟩

/-- Settles O35: the increment's three outcomes, the top being 2^CNT_W - 1. -/
theorem incrementWrapsOrFaultsAtTop : Obligations.IncrementWrapsOrFaultsAtTop := by
  intro p c _
  refine ⟨fun room => inc_below_top (by omega), fun top policy => ?_, fun top policy => ?_⟩
  · obtain rfl : c = 2 ^ cntWidth p - 1 := by omega
    exact inc_top_wrap policy
  · obtain rfl : c = 2 ^ cntWidth p - 1 := by omega
    exact inc_top_fault policy

theorem bitByte_getLsbD (b : Bool) (j : Nat) : (bitByte b).getLsbD j = (decide (j = 0) && b) := by
  cases b <;> cases j <;> simp [bitByte]

theorem statusByte_getLsbD (r : StatusReg) (j : Nat) :
    (statusByte r).getLsbD j =
      ((decide (j = 2) && r.onLine) || (decide (j = 1) && r.batteryGood)) := by
  rw [statusByte, BitVec.getLsbD_or, BitVec.getLsbD_shiftLeft, BitVec.getLsbD_shiftLeft,
    bitByte_getLsbD, bitByte_getLsbD, Bool.eq_iff_iff]
  simp only [Bool.and_eq_true, Bool.or_eq_true, Bool.not_eq_true', decide_eq_true_eq,
    decide_eq_false_iff_not]
  grind

/-- Settles O13: byte 3 is at bit 24 of the word, so each of its places is 24 above the byte's. -/
theorem registerBitsAtTwentySixAndTwentyFive :
    Obligations.RegisterBitsAtTwentySixAndTwentyFive := by
  intro r k
  rw [statusWord48, BitVec.getLsbD_shiftLeft, BitVec.getLsbD_setWidth, statusByte_getLsbD,
    Bool.eq_iff_iff]
  simp only [Bool.and_eq_true, Bool.or_eq_true, Bool.not_eq_true', decide_eq_true_eq,
    decide_eq_false_iff_not]
  grind

end Sys2Proof.Machine
end
